-- ==== Sys2Proof/Word.lean ====
section
/-! DEFINITION. The value types of the IW642 model: bytes, offset sets, times, slot and spare indices, page images. -/

namespace Sys2Proof

/-- One byte. -/
abbrev Byte := BitVec 8

/-- A set of byte offsets 0 to 63 of a page (0.6, R184): offset `k` is a member exactly when bit `k` is set. -/
abbrev OffsetSet := BitVec 64

/-- A moment or a length of time, counted in units of 100 ns (log entry 1). -/
abbrev Time := Nat

/-- A slot index, 0 to 31 (R2). -/
abbrev SlotIx := Fin 32

/-- A spare index, 0 to 15 (R103). -/
abbrev SpareIx := Fin 16

/-- The 64 byte values of one page, offsets 0 to 63. -/
abbrev Page := Vector Byte 64

end Sys2Proof
end

