-- ==== Sys2Proof/Syntax.lean ====
section
/-! DEFINITION. The commands of the IW642: one constructor for each row of spec/opcode_table.json.
The IW642 is a block: its commands are the events of the manual (0.6, "Events"). The table gives the rows no operand bits;
the operands are what the outside brings to the event: the moment `t`, the lines of a host port, a slot whose deadline
expires, the bytes on the two-wire bus, the levels sampled at the rise of RESET_N, and, where the event returns array reads,
what those reads bring that the array as last known does not hold (log entries 1 to 4). -/

namespace Sys2Proof

/-- The two host ports (2.1). -/
inductive PortId where
  | a
  | b
  deriving DecidableEq, Repr

/-- One event of the part. `t` is the moment it is taken. `worn` lists array bytes that, from this event's reads on, return
another value than the array as last known: bytes that have worn (R86) or that another master has changed (R122, R188). -/
inductive Instr where
  /-- REQ is seen asserted at port `p` with these fields (R25). -/
  | accessArrival (t : Time) (p : PortId) (wr : Bool) (addr : BitVec 17) (size : BitVec 2) (wd : BitVec 32)
  /-- REQ is seen removed at port `p` (R25). -/
  | reqRemoved (t : Time) (p : PortId)
  /-- The RDY pulse of an answer to an abandoned REQ ends at port `p` (R25). -/
  | rdyPulseEnd (t : Time) (p : PortId)
  /-- The stall deadline of port `p` expires (R39). -/
  | stallExpiry (t : Time) (p : PortId)
  /-- The last read of the granted fill returns (R18, R96). -/
  | fillCompletion (t : Time) (worn : List Host.Cell)
  /-- The last read of the granted bypass read returns (R33, R97). -/
  | bypassCompletion (t : Time) (worn : List Host.Cell)
  /-- The settle deadline of slot `i` expires (R51). -/
  | settleExpiry (t : Time) (i : SlotIx)
  /-- The age deadline of slot `i` expires (R52). -/
  | ageExpiry (t : Time) (i : SlotIx)
  /-- The FLUSH input is seen high (R56). -/
  | flushRisingEdge (t : Time)
  /-- The PFW input is seen asserted (R58, R153). -/
  | pfwAssertionEdge (t : Time)
  /-- The PFW input is seen deasserted (R153). -/
  | pfwDeassertionEdge (t : Time)
  /-- The engine or the map writer issues the next load of its window (R70, R131). -/
  | pageLoad (t : Time)
  /-- The lapse after the last load ends and the first poll is issued (R71). -/
  | lapseEnd (t : Time)
  /-- A poll read returns; `ended` says that the array has finished programming by this read (R72, R88). -/
  | pollRead (t : Time) (ended : Bool) (worn : List Host.Cell)
  /-- The poll deadline of the attempt expires (R73). -/
  | pollDeadlineExpiry (t : Time)
  /-- The read-back of the attempt completes (R74). -/
  | verifyComplete (t : Time) (worn : List Host.Cell)
  /-- The last backfill read of a retirement returns (R108). -/
  | retireBackfillComplete (t : Time) (worn : List Host.Cell)
  /-- The start-up hold begins (R140). -/
  | holdBegin (t : Time)
  /-- The hold deadline expires, and the map loader begins to read both copies (R100, R141). -/
  | holdEnd (t : Time)
  /-- The 128th read of the map load returns (R129). -/
  | mapLoadEnd (t : Time) (worn : List Host.Cell)
  /-- RESET_N is seen falling (R157). -/
  | resetNFall (t : Time)
  /-- RESET_N is seen rising with these strap levels and these FLUSH and PFW levels (R157, R186). -/
  | resetNRise (t : Time) (acap : Fin 4) (addr : BitVec 2) (flush : Bool) (pfw : Bool)
  /-- A START or repeated START at a byte boundary (R168). -/
  | startCondition (t : Time)
  /-- A STOP at a byte boundary (R168). -/
  | stopCondition (t : Time)
  /-- A START (`stop = false`) or STOP (`stop = true`) inside a byte (R168). -/
  | misplacedCondition (t : Time) (stop : Bool)
  /-- The address byte after a START, its read bit included as bit 0 (R168). -/
  | addressByte (t : Time) (byte : Byte)
  /-- A data byte sent by the master (R169). -/
  | dataByte (t : Time) (byte : Byte)
  /-- A byte read by the master, which acknowledges it or not (R171). -/
  | responseByte (t : Time) (ack : Bool)
  /-- A byte sent by the master after the general-call address (R181). -/
  | generalCallByte (t : Time) (byte : Byte)
  /-- A whole general call carrying 04h ends (R181). -/
  | generalCallFlush (t : Time)
  /-- A whole write of a command byte that names no command ends (R173). -/
  | unknownCommand (t : Time) (code : Byte) (args : List Byte)
  /-- A whole write of the command byte 01h with these argument bytes ends (R175). -/
  | status (t : Time) (args : List Byte)
  /-- A whole write of 02h ends (R176). -/
  | configGet (t : Time) (args : List Byte)
  /-- A whole write of 03h ends (R176). -/
  | configSet (t : Time) (args : List Byte)
  /-- A whole write of 04h ends (R177). -/
  | flush (t : Time) (args : List Byte)
  /-- A whole write of 05h ends (R144, R177). -/
  | quiesce (t : Time) (args : List Byte)
  /-- A whole write of 06h ends (R147, R177). -/
  | resume (t : Time) (args : List Byte)
  /-- A whole write of 07h ends (R148, R178). -/
  | restart (t : Time) (args : List Byte)
  /-- A whole write of 08h ends (R161, R179). -/
  | logRead (t : Time) (args : List Byte)
  /-- A whole write of 09h ends (R179). -/
  | slotRead (t : Time) (args : List Byte)
  /-- A whole write of 0Ah ends (R120, R179). -/
  | mapRead (t : Time) (args : List Byte)
  /-- A whole write of 0Bh ends (R46, R179). -/
  | portError (t : Time) (args : List Byte)
  /-- A whole write of 0Ch ends (R64, R180). -/
  | retry (t : Time) (args : List Byte)
  /-- A whole write of 0Dh ends (R22, R180). -/
  | discard (t : Time) (args : List Byte)
  /-- A whole write of 0Eh ends (R135, R178). -/
  | mapFormat (t : Time) (args : List Byte)
  /-- The FLUSH input is seen low (R56). -/
  | flushFallingEdge (t : Time)
  deriving DecidableEq, Repr

end Sys2Proof
end

