-- ==== Sys2Proof/Decode.lean ====
section
/-! DEFINITION. The command a table word spells. spec/opcode_table.json gives no row any bits: a command of this block is an
event at its pins, not a word in a memory. The command bytes of the management port are data of the two-wire bus and are
decoded in Machine/Commands.lean (R173). -/

namespace Sys2Proof

/-- No row of the table has bits, so no word spells a command (log entry 20). -/
def decodeTableWord (_nbits _w : Nat) : Option Instr := none

end Sys2Proof
end

