-- ==== Sys2Proof/Config.lean ====
section
/-! DEFINITION. The fixed quantities of the manual (11.10 and the rules named) and the one value it leaves open. -/

namespace Sys2Proof.Config

/-- One microsecond in units of `Time`. -/
def microsecond : Time := 10

/-- The 0.25 ms unit of SETTLE (R48). -/
def settleUnit : Time := 2500

/-- One millisecond, the unit of AGE (R48). -/
def millisecond : Time := 10000

/-- The 16 µs unit of STALL (R39). -/
def stallUnit : Time := 160

/-- The silence after the last load of a window, and the distance of the quiet moment from the last load: 160 µs (R71, R84). -/
def lapse : Time := 1600

/-- The poll timeout, 16 ms from the first poll (R72). -/
def pollTimeout : Time := 160000

/-- The start-up hold, 10 ms (R140). -/
def hold : Time := 100000

/-- The least time RDY is held when REQ was removed before the answer: 100 ns (R25). -/
def rdyPulse : Time := 1

/-- The shortest latch lapse of the array, 80 µs (R88). -/
def latchLapseMin : Time := 800

/-- The longest latch lapse of the array, 150 µs (R88). -/
def latchLapseMax : Time := 1500

/-- The longest programming time of the array, 10 ms (R88). -/
def programMax : Time := 100000

/-- The granularity of the settle, age, poll, lapse and hold deadlines, 0.25 ms (R48, R71, R72, R140). -/
def granularity : Time := 2500

/-- FREE VALUE: the array's own latch lapse, which the manual bounds and does not fix (R88; log entry 5). -/
opaque latchLapse : Time

end Sys2Proof.Config
end

