-- ==== Sys2Proof/Machine/State.lean ====
section
/-! DEFINITION. The state of the IW642: every register, record, list, line and deadline the manual gives the part, and the
array behind its port as far as the manual specifies it (R86 to R88). Plain data throughout. -/

namespace Sys2Proof.Machine

/-- No event of this block faults: the manual gives every event its effect, and an event whose premise does not hold changes
nothing (log entry 2). There is therefore no reason to raise, which is safe: nothing is hidden behind a fault. -/
inductive Fault where
  deriving DecidableEq, Repr

/-- Why a step can be refused. -/
inductive Refusal where
  /-- Raised by an arm of `exec` whose command has no meaning yet; no arm raises it in this model. Safe: the run stops. -/
  | notModelled (mnemonic : String)
  deriving DecidableEq, Repr

/-! ### Page slots (chapter 1) -/

/-- The six slot states (1.2). -/
inductive SlotState where
  | free
  | clean
  | dirty
  | sealed
  | committing
  | pinned
  deriving DecidableEq, Repr

/-- One slot record (R2). The index is the slot's place in the slot store. -/
structure Slot where
  state : SlotState
  page : Option Nat
  image : Page
  present : OffsetSet
  dirty : OffsetSet
  dirtySince : Option Time
  settle : Option Time
  age : Option Time
  fillPending : Option OffsetSet
  waitA : Option OffsetSet
  waitB : Option OffsetSet
  deriving DecidableEq, Repr

/-- A page image of 64 bytes 00h (R23). -/
def zeroPage : Page := Vector.replicate 64 0

/-- A slot as pin reset and RESTART leave it (R23, R24). -/
def Slot.reset : Slot :=
  { state := .free, page := none, image := zeroPage, present := 0, dirty := 0, dirtySince := none, settle := none,
    age := none, fillPending := none, waitA := none, waitB := none }

/-! ### Host ports (chapter 2) -/

/-- The four port states (R27). -/
inductive PortState where
  | idle
  | waitFill
  | waitBypass
  | waitSlot
  deriving DecidableEq, Repr

/-- One access, from arrival to answer (2.2). `order` ranks arrivals that carry the same moment (log entry 6). -/
structure Access where
  write : Bool
  addr : BitVec 17
  size : BitVec 2
  data : BitVec 32
  arrival : Time
  order : Nat
  deriving DecidableEq, Repr

/-- The host reason codes (11.1). -/
inductive Reason where
  | none
  | outside
  | misaligned
  | stallExpired
  | storeFull
  | writeRefused
  | arrayUnavailable
  | notReady
  deriving DecidableEq, Repr

/-- The details of the last-error record (2.8). -/
inductive Detail where
  | none
  | badSize
  | unaligned
  | fill
  | bypass
  | slot
  | quiesced
  | degraded
  | powerFail
  | arrayTimeout
  deriving DecidableEq, Repr

/-- The last-error record of a port (2.8). The size is held as the SIZE lines gave it; 11 is INVALID. -/
structure LastError where
  reason : Reason
  detail : Detail
  addr : Option (BitVec 17)
  size : Option (BitVec 2)
  write : Option Bool
  count : Nat
  deriving DecidableEq, Repr

/-- The record as PORT_ERROR and pin reset leave it (R46). -/
def LastError.cleared : LastError :=
  { reason := .none, detail := .none, addr := none, size := none, write := none, count := 0 }

/-- One host port: the record of 2.2, the handshake of 2.1 and its output lines.
`req` is the REQ level last seen; `reqSpent` says that no access is taken from the present assertion of REQ (R25, R29);
`pulseEnd` is the moment from which the RDY pulse of an abandoned REQ may end (R25). -/
structure HostPort where
  state : PortState
  access : Option Access
  stall : Option Time
  waited : Option SlotIx
  lastError : LastError
  req : Bool
  reqSpent : Bool
  rdy : Bool
  err : Bool
  errcode : BitVec 3
  rd : BitVec 32
  pulseEnd : Option Time
  deriving DecidableEq, Repr

/-- A port with nothing presented, nothing outstanding and no error recorded (R27, R46, R187). -/
def HostPort.reset : HostPort :=
  { state := .idle, access := none, stall := none, waited := none, lastError := LastError.cleared, req := false,
    reqSpent := false, rdy := false, err := false, errcode := 0, rd := 0, pulseEnd := none }

/-! ### Array port (chapter 5) -/

/-- An entry of the request list (R92). The offsets of a fill request stand in its slot's fill pending, those of a bypass
read in its port's access. -/
inductive Request where
  | fill (i : SlotIx)
  | bypass (p : PortId)
  deriving DecidableEq, Repr

/-- The owner of the array (5.4). -/
inductive Owner where
  | none
  | fill (i : SlotIx)
  | bypass (p : PortId)
  | engine
  | mapLoader
  | mapWriter
  deriving DecidableEq, Repr

/-- The array condition (R90). -/
inductive Condition where
  | idle
  | loading
  | settling
  | programming
  | unsettled
  deriving DecidableEq, Repr

/-- Who placed the engine request (5.4). -/
inductive EngineRequest where
  | commitEngine
  | mapWriter
  deriving DecidableEq, Repr

/-- What a run of reads in progress serves. -/
inductive ReadKind where
  | fill (i : SlotIx)
  | bypass (p : PortId)
  | mapRead
  deriving DecidableEq, Repr

/-- A granted run of reads that has not ended (R96, R97). `dropped` says that its result goes nowhere, its slot or access
having gone since the grant (R98, R102, R127). -/
structure Reading where
  kind : ReadKind
  page : Nat
  offsets : OffsetSet
  dropped : Bool
  deriving DecidableEq, Repr

/-- The array as the part depends on it (R86 to R88): the stored bytes, an unlisted byte reading FFh; the page latch, its
page, the last loaded byte and the moment of the last load; and whether the array is programming. -/
structure Chip where
  cells : List Host.Cell
  latch : List (Nat × Byte)
  latchPage : Nat
  lastByte : Byte
  loadedAt : Time
  programming : Bool
  deriving DecidableEq, Repr

/-! ### Commit engine and map writer (chapters 4, 6 and 7) -/

/-- The steps of one attempt: load window, lapse, polls, verify (R70 to R74). -/
inductive AttemptStep where
  | load
  | lapse
  | poll
  | verify
  deriving DecidableEq, Repr

/-- One attempt on one physical page: the fields that the commit record (R67) and the map writer's record (R130) share.
`loadSet` is the snapshot set or load set, `toLoad` its offsets not yet loaded in this window, in load order.
`firstFailing` is the first failing set seen on this page, for RECOVERED (R82). -/
structure Attempt where
  target : Nat
  loadSet : OffsetSet
  bytes : Page
  number : Nat
  failing : Option OffsetSet
  firstFailing : Option OffsetSet
  toLoad : List Nat
  pollByte : Option (Nat × Byte)
  pollDeadline : Option Time
  step : AttemptStep
  deriving DecidableEq, Repr

/-- The phase of a commit. In `home` the phase the manual names LOAD, LAPSE, POLL or VERIFY is the attempt's step;
in `spareLoad` the same steps run within SPARE_LOAD (R67, 6.3). -/
inductive CommitPhase where
  | home
  | retireBackfill
  | spareLoad
  | mapWrite
  deriving DecidableEq, Repr

/-- A remap entry: a logical page and its spare (6.2). -/
structure RemapEntry where
  page : Nat
  spare : SpareIx
  deriving DecidableEq, Repr

/-- The commit record (R67). `backfill` is the set of offsets the retirement backfill reads (R107), `homeFailing` the
failing set that began the retirement (R119) and `spare` the spare chosen (R109). -/
structure CommitRecord where
  slot : SlotIx
  page : Nat
  phase : CommitPhase
  attempt : Attempt
  backfill : OffsetSet
  homeFailing : OffsetSet
  spare : Option SpareIx
  tentative : Option RemapEntry
  newlyDead : List SpareIx
  deriving DecidableEq, Repr

/-- The purposes of a map write (R130). -/
inductive MapPurpose where
  | retire
  | deadOnly
  | format0
  | format1
  deriving DecidableEq, Repr

/-- The map writer's record (R130). -/
structure MapWriter where
  purpose : MapPurpose
  copy : Fin 2
  sequence : Option (BitVec 16)
  attempt : Attempt
  deriving DecidableEq, Repr

/-- What the map loader holds while a map load is in flight: the bytes read from each copy so far (R127; log entry 7). -/
structure MapLoader where
  copy0 : List Byte
  copy1 : List Byte
  deriving DecidableEq, Repr

/-! ### Remap unit (chapter 6) -/

/-- The remap table in memory (6.2). -/
structure Remap where
  live : List RemapEntry
  dead : BitVec 16
  copy : Option (Fin 2)
  sequence : Option (BitVec 16)
  deriving DecidableEq, Repr

/-- The empty table, with no current copy (R121). -/
def Remap.reset : Remap := { live := [], dead := 0, copy := none, sequence := none }

/-! ### Store controller (chapter 8) -/

/-- The five store states (8.1). -/
inductive StoreState where
  | starting
  | running
  | draining
  | quiesced
  | degraded
  deriving DecidableEq, Repr

/-- The degraded causes (8.1). -/
inductive Cause where
  | mapInvalid
  | mapWriteFail
  | arrayTimeout
  deriving DecidableEq, Repr

/-- The start origins (8.1). -/
inductive Origin where
  | pinReset
  | restart
  | resume
  deriving DecidableEq, Repr

/-- The start phases (8.1). -/
inductive StartPhase where
  | quietWait
  | hold
  | mapLoad
  deriving DecidableEq, Repr

/-- The store controller's record (8.1), and the quiet moment of R84 and R85. -/
structure Store where
  state : StoreState
  cause : Option Cause
  origin : Option Origin
  phase : Option StartPhase
  holdDeadline : Option Time
  quiet : Time
  deriving DecidableEq, Repr

/-! ### Fault log (chapter 9) -/

/-- The record kinds (9.1). -/
inductive FaultKind where
  | recovered
  | retired
  | spareDead
  | pinned
  | arrayTimeout
  | mapFallback
  | mapInvalid
  | mapWriteFail
  | discarded
  | restarted
  | formatted
  deriving DecidableEq, Repr

/-- A fault record (9.1). -/
structure FaultRecord where
  sequence : BitVec 16
  kind : FaultKind
  logical : Option Nat
  physical : Option Nat
  count : Option Nat
  detail : Byte
  read : Bool
  deriving DecidableEq, Repr

/-- The fault log: record list, oldest at the head, next sequence and unread count (9.1). -/
structure FaultLog where
  records : List FaultRecord
  next : BitVec 16
  unread : Nat
  deriving DecidableEq, Repr

/-- The empty log (R165). -/
def FaultLog.reset : FaultLog := { records := [], next := 0, unread := 0 }

/-! ### Configuration and management port (chapter 10) -/

/-- The configuration parameters (R176). ORDER is held as `aged`. -/
structure Params where
  settle : Nat
  age : Nat
  highwater : Nat
  stall : Nat
  retries : Nat
  aged : Bool
  deriving DecidableEq, Repr

/-- The defaults (R176, R157). -/
def Params.default : Params :=
  { settle := 8, age := 100, highwater := 24, stall := 64, retries := 3, aged := false }

/-- The bus states (10.2). -/
inductive BusState where
  | idle
  | receiving
  | transmitting
  | generalCall
  | ignoring
  deriving DecidableEq, Repr

/-- The long command in progress (R174). -/
inductive LongCommand where
  | none
  | quiesce
  | resume
  | restart
  | mapFormat
  deriving DecidableEq, Repr

/-- The management port's record (10.2). Beside it: `addressDue`, the next byte is the address byte (R168); `sending`, the
master has acknowledged every byte so far (R171); `ack` and `sda`, the last acknowledge and the last byte the port put on
SDA (log entry 8). -/
structure MgmtPort where
  bus : BusState
  addressDue : Bool
  received : List Byte
  overflow : Bool
  gcByte : Option Byte
  readPos : Nat
  sending : Bool
  response : List Byte
  long : LongCommand
  ack : Bool
  sda : Option Byte
  deriving DecidableEq, Repr

/-- The record while RESET_N is low and when it rises (10.2, R182). -/
def MgmtPort.reset : MgmtPort :=
  { bus := .idle, addressDue := false, received := [], overflow := false, gcByte := none, readPos := 0, sending := false,
    response := [], long := .none, ack := false, sda := none }

/-! ### The whole state -/

/-- The 32 slot indices in ascending order. -/
def allSlots : List SlotIx :=
  [0, 1, 2, 3, 4, 5, 6, 7, 8, 9, 10, 11, 12, 13, 14, 15, 16, 17, 18, 19, 20, 21, 22, 23, 24, 25, 26, 27, 28, 29, 30, 31]

/-- The state of the part, of its array, and the queue of commands waiting to be taken. -/
structure State where
  /-- The commands waiting, first in, first out. -/
  pending : List Instr
  /-- The moment of the last event taken (log entry 1). -/
  now : Time
  /-- How many accesses have been taken, for the arrival order of R12 (log entry 6). -/
  arrivals : Nat
  /-- RESET_N as last seen; `false` is low (R157). -/
  resetN : Bool
  /-- The capacity code sampled at the last rise of RESET_N (R1, R186). -/
  capacity : Fin 4
  /-- ADDR1:ADDR0 sampled at the last rise of RESET_N (R167, R186). -/
  addrStrap : BitVec 2
  /-- The FLUSH level last seen by the seal logic (R56). -/
  flushSeen : Bool
  /-- The PFW level last seen: the store controller's PFW view and the seal logic's last seen level (R58, R153). -/
  pfw : Bool
  /-- The slot store (R2). -/
  slots : Vector Slot 32
  /-- The free list, ascending (R5). -/
  freeList : List SlotIx
  /-- The recency list, least recently used first (R6). -/
  recency : List SlotIx
  /-- The age list, earliest dirty-since time first (R7). -/
  ageList : List SlotIx
  /-- The pinned set, held ascending (R8). -/
  pinned : List SlotIx
  /-- The commit queue, earliest sealed first (R61). -/
  queue : List SlotIx
  /-- Host port A (2.2). -/
  portA : HostPort
  /-- Host port B (2.2). -/
  portB : HostPort
  /-- The array owner (5.4). -/
  owner : Owner
  /-- The granted run of fill, bypass or abandoned map reads still in progress (R96 to R98, R102, R127). -/
  reading : Option Reading
  /-- The array condition (R90). -/
  condition : Condition
  /-- The request list, oldest first (R92). -/
  requests : List Request
  /-- The engine request (5.4). -/
  engineReq : Option EngineRequest
  /-- The fairness count (R94). -/
  fairness : Nat
  /-- Port drive: `true` is DRIVEN, with AOWN high (R91). -/
  driven : Bool
  /-- The moment of the part's last page load, if any (R84). -/
  lastLoad : Option Time
  /-- The array (R86 to R88). -/
  chip : Chip
  /-- The commit record (R67). -/
  commit : Option CommitRecord
  /-- The map writer's record (R130). -/
  writer : Option MapWriter
  /-- The map loader's bytes (R127). -/
  loader : Option MapLoader
  /-- The remap table (6.2). -/
  remap : Remap
  /-- The store controller's record (8.1). -/
  store : Store
  /-- The fault log (9.1). -/
  log : FaultLog
  /-- The configuration parameters (R176). -/
  params : Params
  /-- The management port's record (10.2). -/
  mgmt : MgmtPort
  deriving DecidableEq, Repr

/-- The machine right after pin reset: RESET_N has just risen, at moment 0, with every strap unconnected (sampled as 0, R186)
and FLUSH and PFW low. Every block holds its pin reset values, the port is driven, and the store is STARTING with origin
PIN_RESET. No load was issued before, so the hold begins in the event of the rise (R140). The array is one never programmed
(R86); before any load its latch is empty, and its latch page 0, last loaded byte FFh and load moment 0 are the model's choice
(R87 and R88 give none). Log entries 9 and 10. -/
def State.reset : State :=
  { pending := [], now := 0, arrivals := 0, resetN := true, capacity := 0, addrStrap := 0, flushSeen := false, pfw := false,
    slots := Vector.replicate 32 Slot.reset, freeList := allSlots, recency := [], ageList := [], pinned := [], queue := [],
    portA := HostPort.reset, portB := HostPort.reset,
    owner := .none, reading := none, condition := .unsettled, requests := [], engineReq := none, fairness := 0,
    driven := true, lastLoad := none,
    chip := { cells := [], latch := [], latchPage := 0, lastByte := 0xFF, loadedAt := 0, programming := false },
    commit := none, writer := none, loader := none, remap := Remap.reset,
    store := { state := .starting, cause := none, origin := some .pinReset, phase := some .hold,
               holdDeadline := some Config.hold, quiet := 0 },
    log := FaultLog.reset, params := Params.default, mgmt := MgmtPort.reset }

end Sys2Proof.Machine
end

