-- ==== Sys2Proof/Machine/Operands.lean ====
section
/-! DEFINITION. Operand forms: offset sets, page images, the fields of a host access and its data lanes, the geometry of the
array, and the codes of chapter 11. -/

namespace Sys2Proof.Machine

/-! ### Offset sets -/

/-- All 64 offsets of a page. -/
def fullSet : OffsetSet := BitVec.allOnes 64

/-- The `n` offsets from `off` on. -/
def span (off n : Nat) : OffsetSet := BitVec.ofNat 64 ((2 ^ n - 1) <<< off)

/-- The members of an offset set, ascending. -/
def members (s : OffsetSet) : List Nat := (List.range 64).filter fun k => s.getLsbD k

/-- The number of members. -/
def card (s : OffsetSet) : Nat := (members s).length

/-- Every member of `a` is a member of `b`. -/
def subset (a b : OffsetSet) : Bool := decide (a &&& b = a)

/-! ### Page images -/

/-- The byte of an image at an offset. -/
def Page.byte (im : Page) (k : Nat) : Byte := im[k]?.getD 0

/-- An image with the bytes of a list written from an offset on. -/
def Page.put (im : Page) (off : Nat) : List Byte → Page
  | [] => im
  | b :: bs => Page.put (im.setIfInBounds off b) (off + 1) bs

/-- An image with the listed offsets taking their value from `f`. -/
def Page.putEach (im : Page) (f : Nat → Byte) : List Nat → Page
  | [] => im
  | k :: ks => Page.putEach (im.setIfInBounds k (f k)) f ks

/-- The image whose bytes are those of the list. -/
def Page.ofList (bytes : List Byte) : Page := Page.put zeroPage 0 bytes

/-! ### Host accesses (R1, R26) -/

/-- The size of an access in bytes; SIZE 11 is not a size (R26). -/
def sizeBytes (size : BitVec 2) : Nat :=
  match size.toNat with
  | 0 => 1
  | 1 => 2
  | 2 => 4
  | _ => 0

/-- The logical page of a host address (R1). -/
def Access.page (acc : Access) : Nat := acc.addr.toNat / 64

/-- The byte offset of a host address in its page (R1). -/
def Access.offset (acc : Access) : Nat := acc.addr.toNat % 64

/-- The offsets of an access. -/
def Access.offsets (acc : Access) : OffsetSet := span acc.offset (sizeBytes acc.size)

/-- The low `n` bytes of a word, the lowest lane first (R26). -/
def laneBytes (w : BitVec 32) : Nat → List Byte
  | 0 => []
  | n + 1 => w.setWidth 8 :: laneBytes (w >>> 8) n

/-- The bytes a write carries, the byte at the access address first (R26). -/
def Access.bytes (acc : Access) : List Byte := laneBytes acc.data (sizeBytes acc.size)

/-- Bytes assembled little-endian, the first on the lowest lane, lanes beyond them 0 (R15, R26). -/
def assemble : List Byte → BitVec 32
  | [] => 0
  | b :: bs => b.setWidth 32 ||| (assemble bs <<< 8)

/-- The data of a read whose byte at each offset is given by `f`. -/
def Access.readValue (acc : Access) (f : Nat → Byte) : BitVec 32 :=
  assemble ((List.range (sizeBytes acc.size)).map fun k => f (acc.offset + k))

/-! ### Geometry (R1) -/

/-- N, the number of physical pages of a capacity code. -/
def pageCount (capacity : Fin 4) : Nat := 256 * 2 ^ capacity.val

/-- L, the number of logical pages. -/
def logicalPages (capacity : Fin 4) : Nat := pageCount capacity - 18

/-- The host window in bytes. -/
def windowBytes (capacity : Fin 4) : Nat := logicalPages capacity * 64

/-- The physical page of a spare. -/
def sparePage (capacity : Fin 4) (s : SpareIx) : Nat := pageCount capacity - 18 + s.val

/-- The physical page of a map copy (R122). -/
def mapPage (capacity : Fin 4) (copy : Fin 2) : Nat := pageCount capacity - 2 + copy.val

/-- The array byte address of a page and an offset (5.1). -/
def arrayAddress (page off : Nat) : Nat := page * 64 + off

/-- The spare as a member of a dead mask (11.8). -/
def spareBit (s : SpareIx) : BitVec 16 := BitVec.ofNat 16 (2 ^ s.val)

/-- The dead mask of a list of spares. -/
def spareMask : List SpareIx → BitVec 16
  | [] => 0
  | s :: ss => spareBit s ||| spareMask ss

/-- The 16 spare indices, ascending. -/
def allSpares : List SpareIx := [0, 1, 2, 3, 4, 5, 6, 7, 8, 9, 10, 11, 12, 13, 14, 15]

/-! ### Codes of 11.1 -/

/-- The ERRCODE value of a reason. -/
def Reason.code : Reason → Nat
  | .none => 0
  | .outside => 1
  | .misaligned => 2
  | .stallExpired => 3
  | .storeFull => 4
  | .writeRefused => 5
  | .arrayUnavailable => 6
  | .notReady => 7

/-- The detail byte of the last-error record. -/
def Detail.code : Detail → Byte
  | .none => 0x00
  | .badSize => 0x01
  | .unaligned => 0x02
  | .fill => 0x03
  | .bypass => 0x04
  | .slot => 0x05
  | .quiesced => 0x06
  | .degraded => 0x07
  | .powerFail => 0x08
  | .arrayTimeout => 0x09

/-- The slot state codes. -/
def SlotState.code : SlotState → Byte
  | .free => 0x00
  | .clean => 0x01
  | .dirty => 0x02
  | .sealed => 0x03
  | .committing => 0x04
  | .pinned => 0x05

/-- The store state codes. -/
def StoreState.code : StoreState → Byte
  | .starting => 0x01
  | .running => 0x02
  | .draining => 0x03
  | .quiesced => 0x04
  | .degraded => 0x05

/-- The degraded cause codes, 00h when absent. -/
def causeCode : Option Cause → Byte
  | none => 0x00
  | some .mapInvalid => 0x01
  | some .mapWriteFail => 0x02
  | some .arrayTimeout => 0x03

/-- The long command codes: the command's own code. -/
def LongCommand.code : LongCommand → Byte
  | .none => 0x00
  | .quiesce => 0x05
  | .resume => 0x06
  | .restart => 0x07
  | .mapFormat => 0x0E

/-- The fault record kind codes. -/
def FaultKind.code : FaultKind → Byte
  | .recovered => 0x01
  | .retired => 0x02
  | .spareDead => 0x03
  | .pinned => 0x04
  | .arrayTimeout => 0x05
  | .mapFallback => 0x06
  | .mapInvalid => 0x07
  | .mapWriteFail => 0x08
  | .discarded => 0x09
  | .restarted => 0x0A
  | .formatted => 0x0B

/-- PINNED detail: cause ARRAY_TIMEOUT. -/
def pinnedByTimeout : Byte := 0x01

/-- PINNED detail: cause NO_SPARE. -/
def pinnedNoSpare : Byte := 0x02

/-- ARRAY_TIMEOUT details: HOME, SPARE, MAP. -/
def timeoutHome : Byte := 0x01

/-- See `timeoutHome`. -/
def timeoutSpare : Byte := 0x02

/-- See `timeoutHome`. -/
def timeoutMap : Byte := 0x03

/-- MAP_WRITE_FAIL details: RETIRE, DEAD_ONLY, FORMAT. -/
def MapPurpose.failDetail : MapPurpose → Byte
  | .retire => 0x01
  | .deadOnly => 0x02
  | .format0 => 0x03
  | .format1 => 0x03

/-- The management address of the straps: 2Ch + ADDR1:ADDR0 (R167). -/
def ownAddress (straps : BitVec 2) : BitVec 7 := 0x2C + straps.setWidth 7

end Sys2Proof.Machine
end

