-- ==== Sys2Proof/Machine/Ops.lean ====
section
/-! DEFINITION. The named operations over the state: slot and port access, time, the array and its stored bytes, the
collections, the fault log, and the answers of a host port. -/

namespace Sys2Proof.Machine

/-! ### Time -/

/-- An event is taken at moment `t`; time does not run backwards (log entry 1). -/
def State.tick (s : State) (t : Time) : State := { s with now := max s.now t }

/-- A deadline is present and has come. -/
def State.due (s : State) (deadline : Option Time) : Bool :=
  match deadline with
  | none => false
  | some d => decide (d ≤ s.now)

/-! ### Slots and ports -/

/-- The record of a slot. -/
def State.slot (s : State) (i : SlotIx) : Slot := s.slots[i.val]

/-- The state with a slot's record replaced. -/
def State.setSlot (s : State) (i : SlotIx) (x : Slot) : State := { s with slots := s.slots.set i.val x }

/-- The state with a slot's record changed by `f`. -/
def State.modSlot (s : State) (i : SlotIx) (f : Slot → Slot) : State := s.setSlot i (f (s.slot i))

/-- The record of a host port. -/
def State.port (s : State) : PortId → HostPort
  | .a => s.portA
  | .b => s.portB

/-- The state with a port's record replaced. -/
def State.setPort (s : State) (p : PortId) (h : HostPort) : State :=
  match p with
  | .a => { s with portA := h }
  | .b => { s with portB := h }

/-- The state with a port's record changed by `f`. -/
def State.modPort (s : State) (p : PortId) (f : HostPort → HostPort) : State := s.setPort p (f (s.port p))

/-- The offsets port `p` waits for on a slot (R2). -/
def Slot.wait (x : Slot) : PortId → Option OffsetSet
  | .a => x.waitA
  | .b => x.waitB

/-- A slot with the waiting offsets of port `p` replaced. -/
def Slot.setWait (x : Slot) (p : PortId) (w : Option OffsetSet) : Slot :=
  match p with
  | .a => { x with waitA := w }
  | .b => { x with waitB := w }

/-- No port waits on the slot. -/
def Slot.unwaited (x : Slot) : Bool := x.waitA.isNone && x.waitB.isNone

/-- Both ports, in the order their outstanding accesses arrived (R12, R17). -/
def State.portsByArrival (s : State) : List PortId :=
  match s.portA.access, s.portB.access with
  | some a, some b => if b.order < a.order then [.b, .a] else [.a, .b]
  | _, _ => [.a, .b]

/-! ### Stored bytes of the array: cells by rising address, an unlisted address reading FFh (R86) -/

/-- What an unlisted address reads: a byte never programmed returns FFh (R86). -/
def Memory.unlisted : Byte := 0xFF

/-- The byte at an address. -/
def Memory.read : List Host.Cell → Nat → Byte
  | [], _ => Memory.unlisted
  | c :: rest, a => if c.1 = a then c.2 else Memory.read rest a

/-- A cell put in front of a list, unless it holds what an unlisted address reads. -/
def Memory.consCell (a : Nat) (v : Byte) (rest : List Host.Cell) : List Host.Cell :=
  if v = Memory.unlisted then rest else (a, v) :: rest

/-- The bytes with one address written. -/
def Memory.write : List Host.Cell → Nat → Byte → List Host.Cell
  | [], a, v => Memory.consCell a v []
  | c :: rest, a, v =>
    if a < c.1 then Memory.consCell a v (c :: rest)
    else if a = c.1 then Memory.consCell a v rest
    else c :: Memory.write rest a v

/-- The canonical form: addresses strictly rising, no cell equal to what an unlisted address reads. -/
def Memory.wf : List Host.Cell → Bool
  | [] => true
  | [c] => decide (c.2 ≠ Memory.unlisted)
  | c :: d :: rest => decide (c.2 ≠ Memory.unlisted) && decide (c.1 < d.1) && Memory.wf (d :: rest)

/-- The bytes with each listed offset of a page written. -/
def Memory.writeLatch (cells : List Host.Cell) (page : Nat) : List (Nat × Byte) → List Host.Cell
  | [] => cells
  | e :: rest => Memory.writeLatch (Memory.write cells (arrayAddress page e.1) e.2) page rest

/-- The bytes with each observed byte below `limit` written. -/
def Memory.observe (limit : Nat) (cells : List Host.Cell) : List Host.Cell → List Host.Cell
  | [] => cells
  | c :: rest => Memory.observe limit (if c.1 < limit then Memory.write cells c.1 c.2 else cells) rest

/-! ### The array (R86 to R88) -/

/-- Bit 7 inverted, the sign of an array that is programming (R72, R88). -/
def invert7 (b : Byte) : Byte := b ^^^ 0x80

/-- The value of an array read (R86, R88). -/
def Chip.read (c : Chip) (page off : Nat) : Byte :=
  if c.programming then invert7 c.lastByte else Memory.read c.cells (arrayAddress page off)

/-- The latch lapse has run out since the last load: surely after 150 µs, surely not before 80 µs, and in between at the
array's own lapse, which is left free (R88; log entry 5). -/
def Chip.lapsed (c : Chip) (now : Time) : Bool :=
  if c.latch.isEmpty then false
  else if now < c.loadedAt + Config.latchLapseMin then false
  else if c.loadedAt + Config.latchLapseMax ≤ now then true
  else decide (c.loadedAt + Config.latchLapse ≤ now)

/-- A page load (R87): it latches one byte and names the latch page; a load that finds the array programming is ignored
(R88). -/
def Chip.load (c : Chip) (now : Time) (page off : Nat) (b : Byte) : Chip :=
  if c.programming then c
  else if c.lapsed now then { c with programming := true }
  else { c with latch := c.latch.filter (fun e => e.1 ≠ off) ++ [(off, b)], latchPage := page, lastByte := b, loadedAt := now }

/-- Programming has begun: the latched bytes are being written (R88). -/
def Chip.begin (c : Chip) : Chip := if c.latch.isEmpty then c else { c with programming := true }

/-- Programming ends: the latched bytes stand in the latch page at their offsets, and the latch is empty (R88). -/
def Chip.finish (c : Chip) : Chip :=
  { c with cells := Memory.writeLatch c.cells c.latchPage c.latch, latch := [], programming := false }

/-- Programming that must have ended by now has ended: it begins at most 150 µs after the last load and ends within 10 ms
(R88). -/
def Chip.advance (c : Chip) (now : Time) : Chip :=
  if !c.latch.isEmpty && decide (c.loadedAt + Config.latchLapseMax + Config.programMax ≤ now) then c.finish else c

/-- The array bytes that this event finds changed by wear or by another master (R86, R188; log entry 4). -/
def State.observe (s : State) (worn : List Host.Cell) : State :=
  { s with chip := { s.chip with cells := Memory.observe (pageCount s.capacity * 64) s.chip.cells worn } }

/-! ### Translation (R99, R105) -/

/-- The live entry of a logical page. -/
def Remap.entry (r : Remap) (page : Nat) : Option RemapEntry := r.live.find? fun e => e.page = page

/-- The physical page of a logical page, by the table in memory. -/
def State.translate (s : State) (page : Nat) : Nat :=
  match s.remap.entry page with
  | some e => sparePage s.capacity e.spare
  | none => page

/-! ### The collections (R4 to R8, R61) -/

/-- An index inserted into an ascending list at the place it gives (R5). -/
def insertAscending (i : SlotIx) : List SlotIx → List SlotIx
  | [] => [i]
  | j :: rest => if i < j then i :: j :: rest else j :: insertAscending i rest

/-- Slot `i` stands nearer the head of the age list than slot `j`: by dirty-since time, then by index (R7). -/
def State.olderThan (s : State) (i j : SlotIx) : Bool :=
  let ti := (s.slot i).dirtySince.getD 0
  let tj := (s.slot j).dirtySince.getD 0
  decide (ti < tj) || (decide (ti = tj) && decide (i < j))

/-- A slot inserted into the age list at the place its dirty-since time gives (R7). -/
def State.insertByAge (s : State) (i : SlotIx) : List SlotIx → List SlotIx
  | [] => [i]
  | j :: rest => if s.olderThan i j then i :: j :: rest else j :: s.insertByAge i rest

/-- The slot leaves the collection of its state (R4). -/
def State.leave (s : State) (i : SlotIx) : State :=
  match (s.slot i).state with
  | .free => { s with freeList := s.freeList.erase i }
  | .clean => { s with recency := s.recency.erase i }
  | .dirty => { s with ageList := s.ageList.erase i }
  | .sealed => { s with queue := s.queue.erase i }
  | .committing => s
  | .pinned => { s with pinned := s.pinned.erase i }

/-- The slot joins the collection of a state at the place that collection's rule gives (R4 to R8, R61). -/
def State.join (s : State) (i : SlotIx) : SlotState → State
  | .free => { s with freeList := insertAscending i s.freeList }
  | .clean => { s with recency := s.recency ++ [i] }
  | .dirty => { s with ageList := s.insertByAge i s.ageList }
  | .sealed => { s with queue := s.queue ++ [i] }
  | .committing => s
  | .pinned => { s with pinned := insertAscending i s.pinned }

/-- The slot with its new state; both deadlines go whenever the new state is not DIRTY (R2). -/
def Slot.become (x : Slot) (st : SlotState) : Slot :=
  match st with
  | .dirty => { x with state := .dirty }
  | st => { x with state := st, settle := none, age := none }

/-- A change of a slot's state: out of the collection of the old state and into that of the new, in one event (R4). Moving a
CLEAN slot to CLEAN puts it at the recency tail (R6). -/
def State.moveTo (s : State) (i : SlotIx) (st : SlotState) : State :=
  ((s.leave i).modSlot i (·.become st)).join i st

/-! ### Finding, allocating and releasing slots (R9 to R11, R20) -/

/-- The slot that carries a logical page, among the slots that are not FREE (R9). -/
def State.lookup (s : State) (page : Nat) : Option SlotIx :=
  allSlots.find? fun i => decide ((s.slot i).state ≠ .free) && decide ((s.slot i).page = some page)

/-- A CLEAN slot that can be evicted: no fill pending and no waiting port (R10). -/
def State.evictable (s : State) (i : SlotIx) : Bool := (s.slot i).fillPending.isNone && (s.slot i).unwaited

/-- The slot an allocation takes: the head of the free list, else the first evictable slot of the recency list (R10). -/
def State.allocatable (s : State) : Option SlotIx :=
  match s.freeList with
  | i :: _ => some i
  | [] => s.recency.find? s.evictable

/-- The slot is allocated to a page: CLEAN, empty, at the recency tail (R11). The image values stay as they are, meaningless
until they become present (log entry 11). -/
def State.allocate (s : State) (i : SlotIx) (page : Nat) : State :=
  (s.moveTo i .clean).modSlot i fun x =>
    { x with page := some page, present := 0, dirty := 0, dirtySince := none, fillPending := none, waitA := none, waitB := none }

/-- The slot becomes FREE, carrying nothing (R2, R20, R22; log entry 11 for the image). -/
def State.freeSlot (s : State) (i : SlotIx) : State :=
  (s.moveTo i .free).modSlot i fun x =>
    { x with page := none, present := 0, dirty := 0, dirtySince := none, fillPending := none, waitA := none, waitB := none }

/-- A slot that holds nothing and waits for nothing is released (R20). -/
def State.releaseIfEmpty (s : State) (i : SlotIx) : State :=
  let x := s.slot i
  if x.state ≠ .free ∧ x.present = 0 ∧ x.dirty = 0 ∧ x.unwaited ∧ x.fillPending.isNone then s.freeSlot i else s

/-! ### The fault log (R159) -/

/-- A record is appended with the next sequence, unread; a full log loses its head (R159). -/
def FaultLog.append (l : FaultLog) (kind : FaultKind) (logical physical count : Option Nat) (detail : Byte) : FaultLog :=
  let r : FaultRecord := { sequence := l.next, kind, logical, physical, count, detail, read := false }
  match l.records with
  | h :: rest =>
    if l.records.length < 16 then { records := l.records ++ [r], next := l.next + 1, unread := l.unread + 1 }
    else { records := rest ++ [r], next := l.next + 1, unread := if h.read then l.unread + 1 else l.unread + 1 - 1 }
  | [] => { records := [r], next := l.next + 1, unread := l.unread + 1 }

/-- The state with a record appended to its log. -/
def State.append (s : State) (kind : FaultKind) (logical physical count : Option Nat) (detail : Byte) : State :=
  { s with log := s.log.append kind logical physical count detail }

/-! ### Answers of a host port (R25, R27, R45) -/

/-- The port with an answer presented: RDY, and for an error response ERR and ERRCODE with RD 0. The port is IDLE, its access,
waited slot and stall deadline are gone, and the REQ level decides the handshake (R25, R27). With data or OK, ERRCODE is 0: DESIGN
CHOICE, log entry 33. -/
def HostPort.present (h : HostPort) (now : Time) (reason : Reason) (rd : BitVec 32) : HostPort :=
  { h with state := .idle, access := none, stall := none, waited := none, rdy := true, err := decide (reason ≠ .none),
           errcode := BitVec.ofNat 3 reason.code, rd := if reason = .none then rd else 0,
           pulseEnd := if h.req then none else some (now + Config.rdyPulse) }

/-- The answer is removed: RDY, ERR and ERRCODE fall and RD is driven to 0 (2.1, R25). -/
def HostPort.withdraw (h : HostPort) : HostPort :=
  { h with rdy := false, err := false, errcode := 0, rd := 0, pulseEnd := none }

/-- The last-error record takes the access just answered; the count stops at 255 (R45). -/
def HostPort.recordError (h : HostPort) (acc : Access) (reason : Reason) (detail : Detail) : HostPort :=
  { h with lastError := { reason, detail, addr := some acc.addr, size := some acc.size, write := some acc.write,
                          count := if h.lastError.count < 255 then h.lastError.count + 1 else 255 } }

/-- A read is answered with data, or a write OK (for which RD is 0, log entry 12). -/
def State.answer (s : State) (p : PortId) (rd : BitVec 32) : State := s.modPort p fun h => h.present s.now .none rd

/-- An access is answered with an error response, entered in the last-error record (R28, R45). -/
def State.answerError (s : State) (p : PortId) (reason : Reason) (detail : Detail) : State :=
  s.modPort p fun h =>
    match h.access with
    | none => h
    | some acc => (h.recordError acc reason detail).present s.now reason 0

/-- An access is answered NOT_READY, which enters nothing (R28, R29). -/
def State.answerNotReady (s : State) (p : PortId) : State := s.modPort p fun h => h.present s.now .notReady 0

end Sys2Proof.Machine
end

