-- ==== Sys2Proof/Machine/Sealing.lean ====
section
/-! DEFINITION. The shared operations of the seal logic and the slot store: deadlines, seals, the full-page and high-water
checks, flushes, and the write merge (R13, R14, R47 to R60). -/

namespace Sys2Proof.Machine

/-- The store is in one of the states in which commits start and the full-page and high-water seals apply (R53, R54, R62). -/
def State.committable (s : State) : Bool :=
  match s.store.state with
  | .running => true
  | .draining => true
  | .starting => false
  | .quiesced => false
  | .degraded => false

/-- A slot entering DIRTY is given both deadlines while the store is RUNNING: settle from now, age from its dirty-since time
but not before now (R48). In the other states it is given none (R50). -/
def State.giveDeadlines (s : State) (i : SlotIx) : State :=
  if s.store.state = .running then
    s.modSlot i fun x =>
      { x with settle := some (s.now + s.params.settle * Config.settleUnit),
               age := some (max (x.dirtySince.getD s.now + s.params.age * Config.millisecond) s.now) }
  else s

/-- A merge restarts the settle deadline that a slot carries; the age deadline stands (R49). -/
def Slot.restartSettle (x : Slot) (deadline : Time) : Slot :=
  match x.settle with
  | none => x
  | some _ => { x with settle := some deadline }

/-- The slot's deadlines removed (R50). -/
def Slot.clearDeadlines (x : Slot) : Slot := { x with settle := none, age := none }

/-- Every settle and age deadline is removed, as when the store leaves RUNNING (R50). -/
def State.clearDeadlines (s : State) : State := allSlots.foldl (fun s i => s.modSlot i Slot.clearDeadlines) s

/-- One seal (R47): a DIRTY slot leaves the age list, loses its deadlines and is appended to the commit queue. A slot no
longer DIRTY is not sealed again. -/
def State.sealOne (s : State) (i : SlotIx) : State :=
  if (s.slot i).state = .dirty then s.moveTo i .sealed else s

/-- The seal a cause asks for: in ORDER AGED every DIRTY slot ahead of the named one is sealed first, in age order (R59). -/
def State.sealNamed (s : State) (i : SlotIx) : State :=
  if (s.slot i).state = .dirty then
    if s.params.aged then ((s.ageList.takeWhile (fun j => j ≠ i)).foldl State.sealOne s).sealOne i
    else s.sealOne i
  else s

/-- A flush seals every DIRTY slot in age order (R55). -/
def State.sealAll (s : State) : State := s.ageList.foldl State.sealOne s

/-- The full-page seal of one slot (R53). -/
def State.fullPage (s : State) (i : SlotIx) : State :=
  if s.committable ∧ (s.slot i).dirty = fullSet then s.sealNamed i else s

/-- The high-water seal: the oldest DIRTY slots are sealed until their number is not above HIGHWATER (R54). -/
def State.highWater (s : State) : State :=
  if s.committable then (s.ageList.take (s.ageList.length - s.params.highwater)).foldl State.sealOne s else s

/-- The bytes of a write in the slot that carries its page (R13). -/
def Slot.merge (x : Slot) (acc : Access) (now : Time) : Slot :=
  { x with image := Page.put x.image acc.offset acc.bytes
           present := x.present ||| acc.offsets
           dirty := x.dirty ||| acc.offsets
           dirtySince := if x.dirty = 0 then some now else x.dirtySince }

/-- A write merge and its effect on the slot's state, collections and deadlines, by the state in which it finds the slot
(R13, R14, R49, R53, R54). A FREE slot is never found. -/
def State.merge (s : State) (i : SlotIx) (acc : Access) : State :=
  let m := s.modSlot i fun x => x.merge acc s.now
  match (s.slot i).state with
  | .free => s
  | .clean => ((m.moveTo i .dirty).giveDeadlines i).highWater
  | .dirty => (m.modSlot i fun x => x.restartSettle (s.now + s.params.settle * Config.settleUnit)).fullPage i
  | .sealed => m
  | .committing => m
  | .pinned => m

end Sys2Proof.Machine
end

