-- ==== Sys2Proof/Machine/Access.lean ====
section
/-! DEFINITION. The shared operations of the access unit: arrival checks, the read and write paths, waits at the ports, waiting
writes, fill requests and their withdrawal (R10 to R12, R16 to R20, R28 to R38, R92, R98). -/

namespace Sys2Proof.Machine

/-! ### Arrival checks (R28) -/

/-- The checks of R28 in their order: the first that applies gives the reason and the detail. -/
def State.arrivalCheck (s : State) (acc : Access) : Option (Reason × Detail) :=
  if s.resetN = false then some (.notReady, .none)
  else if acc.size = 3 then some (.misaligned, .badSize)
  else if acc.addr.toNat % sizeBytes acc.size ≠ 0 then some (.misaligned, .unaligned)
  else if windowBytes s.capacity ≤ acc.addr.toNat then some (.outside, .none)
  else if acc.write ∧ s.pfw then some (.writeRefused, .powerFail)
  else if acc.write ∧ s.store.state = .degraded then some (.writeRefused, .degraded)
  else none

/-! ### Waits (R16, R27, R39, R92) -/

/-- The array cannot be read for the host: QUIESCED, or DEGRADED with cause ARRAY_TIMEOUT; with the detail of the answer
(R34). -/
def State.arrayUnavailable (s : State) : Option Detail :=
  match s.store.state with
  | .quiesced => some .quiesced
  | .degraded => if s.store.cause = some .arrayTimeout then some .arrayTimeout else none
  | .starting => none
  | .running => none
  | .draining => none

/-- The port enters a wait state. The stall deadline is set at the first wait, from the arrival moment, and kept after it
(R27, R39). -/
def State.enterWait (s : State) (p : PortId) (acc : Access) (st : PortState) (waited : Option SlotIx) : State :=
  s.modPort p fun h =>
    { h with state := st, waited,
             stall := match h.stall with
               | some d => some d
               | none => some (acc.arrival + s.params.stall * Config.stallUnit) }

/-- The slot's fill request: every offset not present, recorded as fill pending and appended to the request list; a fill
already pending is joined (R16, R92). -/
def State.requestFill (s : State) (i : SlotIx) : State :=
  match (s.slot i).fillPending with
  | some _ => s
  | none =>
    let m := s.modSlot i fun x => { x with fillPending := some (~~~x.present) }
    { m with requests := m.requests ++ [Request.fill i] }

/-- The port waits on the slot for the offsets of its read (R16, R31). -/
def State.waitOnSlot (s : State) (i : SlotIx) (p : PortId) (acc : Access) : State :=
  ((s.requestFill i).modSlot i fun x => x.setWait p (some acc.offsets)).enterWait p acc .waitFill (some i)

/-! ### The read path (R30 to R35) -/

/-- The image value of a read served by a slot (R15). -/
def State.slotValue (s : State) (i : SlotIx) (acc : Access) : BitVec 32 :=
  acc.readValue fun k => Page.byte (s.slot i).image k

/-- A use of a CLEAN slot puts it at the recency tail; a slot in any other state stays where it is (R6, R15). -/
def State.touch (s : State) (i : SlotIx) : State :=
  match (s.slot i).state with
  | .clean => s.moveTo i .clean
  | .free => s
  | .dirty => s
  | .sealed => s
  | .committing => s
  | .pinned => s

/-- A read hit (R15, R30). -/
def State.readHit (s : State) (p : PortId) (i : SlotIx) (acc : Access) : State :=
  (s.touch i).answer p (s.slotValue i acc)

/-- A read whose slot, if any, lacks some of its bytes: refused where the array is unavailable (R34), else it waits on its
slot (R31), on a slot allocated for it, or for a bypass read (R32). -/
def State.readMiss (s : State) (p : PortId) (acc : Access) (found : Option SlotIx) : State :=
  match s.arrayUnavailable with
  | some detail => s.answerError p .arrayUnavailable detail
  | none =>
    match found with
    | some i => s.waitOnSlot i p acc
    | none =>
      match s.allocatable with
      | some i => (s.allocate i acc.page).waitOnSlot i p acc
      | none => ({ s with requests := s.requests ++ [Request.bypass p] }).enterWait p acc .waitBypass none

/-- The read path of an access that passed its checks, or starts again from the lookup (2.4, R44). -/
def State.readPath (s : State) (p : PortId) (acc : Access) : State :=
  match s.lookup acc.page with
  | some i => if subset acc.offsets (s.slot i).present then s.readHit p i acc else s.readMiss p acc (some i)
  | none => s.readMiss p acc none

/-! ### The write path (R36, R37) -/

/-- The write is given a slot: the one that carries its page, else an allocatable one; it is merged and answered OK (R11, R12,
R36). With neither, nothing changes. -/
def State.writeInto (s : State) (p : PortId) (acc : Access) : State :=
  match s.lookup acc.page with
  | some i => (s.merge i acc).answer p 0
  | none =>
    match s.allocatable with
    | some i => ((s.allocate i acc.page).merge i acc).answer p 0
    | none => s

/-- The write has somewhere to go. -/
def State.writable (s : State) (page : Nat) : Bool := (s.lookup page).isSome || s.allocatable.isSome

/-- The write path of an access that passed its checks (R36, R37). -/
def State.writePath (s : State) (p : PortId) (acc : Access) : State :=
  if s.writable acc.page then s.writeInto p acc
  else if s.store.state = .quiesced then s.answerError p .storeFull .quiesced
  else s.enterWait p acc .waitSlot none

/-- A write waiting in WAIT_SLOT is served if it can be (R12). -/
def State.serveWrite (s : State) (p : PortId) : State :=
  match (s.port p).state, (s.port p).access with
  | .waitSlot, some acc => s.writeInto p acc
  | _, _ => s

/-- The writes waiting for a slot are served, the earlier arrival first (R12). -/
def State.serveWaiting (s : State) : State := s.portsByArrival.foldl State.serveWrite s

/-- The ports served one after the other, the earlier arrival first: reads that start again from their lookup, and writes
waiting for a slot (R17, R24, R44). -/
def State.serveRestarted (s : State) (restarted : List PortId) : State :=
  s.portsByArrival.foldl (fun s p =>
    if restarted.contains p then
      match (s.port p).access with
      | some acc => s.readPath p acc
      | none => s
    else s.serveWrite p) s

/-- The place of a request among requests made in one event: fills by slot index, then port A's bypass read, then port B's
(R92). -/
def Request.rank : Request → Nat
  | .fill i => i.val
  | .bypass .a => 32
  | .bypass .b => 33

/-- A request inserted by rank. -/
def insertRequest (r : Request) : List Request → List Request
  | [] => [r]
  | q :: rest => if r.rank < q.rank then r :: q :: rest else q :: insertRequest r rest

/-- The requests made in this event, those after the first `old`, put in the order of R92. -/
def State.orderRequests (s : State) (old : Nat) : State :=
  { s with requests := s.requests.take old ++ (s.requests.drop old).foldr insertRequest [] }

/-! ### Withdrawal (R19, R98) and answers to waiting accesses (R34, R38) -/

/-- A slot's fill request leaves the request list and its fill pending becomes absent (R19, R98). -/
def State.withdrawFill (s : State) (i : SlotIx) : State :=
  let m := s.modSlot i fun x => { x with fillPending := none }
  { m with requests := m.requests.erase (Request.fill i) }

/-- Whether a port waits on the slot. -/
def State.waitsOn (s : State) (i : SlotIx) (p : PortId) : Bool := ((s.slot i).wait p).isSome

/-- A port waiting on the slot leaves it, answered ARRAY_UNAVAILABLE (R34). -/
def State.refuseWaiter (s : State) (i : SlotIx) (detail : Detail) (p : PortId) : State :=
  if s.waitsOn i p then (s.modSlot i fun x => x.setWait p none).answerError p .arrayUnavailable detail else s

/-- One request not yet granted is withdrawn and the reads waiting on it are answered ARRAY_UNAVAILABLE; the slot is released
if it is left empty (R19, R20, R34). -/
def State.withdrawRequest (detail : Detail) (s : State) (r : Request) : State :=
  match r with
  | .fill i => (((s.withdrawFill i).refuseWaiter i detail .a).refuseWaiter i detail .b).releaseIfEmpty i
  | .bypass p => ({ s with requests := s.requests.erase (Request.bypass p) }).answerError p .arrayUnavailable detail

/-- Every request not yet granted is withdrawn (R98). -/
def State.withdrawAll (s : State) (detail : Detail) : State := s.requests.foldl (State.withdrawRequest detail) s

/-- A write waiting in WAIT_SLOT is answered with an error response (R38). -/
def State.refuseWrite (reason : Reason) (detail : Detail) (s : State) (p : PortId) : State :=
  if (s.port p).state = .waitSlot then s.answerError p reason detail else s

/-- Every write waiting in WAIT_SLOT is answered with an error response (R38). -/
def State.refuseWrites (s : State) (reason : Reason) (detail : Detail) : State :=
  [PortId.a, PortId.b].foldl (State.refuseWrite reason detail) s

/-! ### Fill completion (R18) -/

/-- Array bytes land in a slot at the offsets of a set that are not present (R18, R108). -/
def Slot.land (x : Slot) (f : Nat → Byte) (offs : OffsetSet) : Slot :=
  let missing := offs &&& ~~~x.present
  { x with image := Page.putEach x.image f (members missing), present := x.present ||| missing }

/-- A waiting port whose offsets are all present is answered from the image and leaves the slot (R18). -/
def State.answerWaiter (i : SlotIx) (s : State) (p : PortId) : State :=
  match (s.slot i).wait p, (s.port p).access with
  | some offs, some acc =>
    if subset offs (s.slot i).present then (s.modSlot i fun x => x.setWait p none).answer p (s.slotValue i acc) else s
  | _, _ => s

/-- Both waiting ports of a slot. -/
def State.answerWaiters (s : State) (i : SlotIx) : State := [PortId.a, PortId.b].foldl (State.answerWaiter i) s

/-- A fill completes on its slot: the array bytes land at the offsets still missing, the fill pending becomes absent, the
waiting ports are answered, and a CLEAN slot that answered one goes to the recency tail (R18). -/
def State.completeFill (s : State) (i : SlotIx) (page : Nat) (offs : OffsetSet) : State :=
  let m := s.modSlot i fun x => { x.land (fun k => s.chip.read page k) offs with fillPending := none }
  let answered := m.answerWaiters i
  if (answered.slot i).waitA = (m.slot i).waitA ∧ (answered.slot i).waitB = (m.slot i).waitB then answered
  else answered.touch i

end Sys2Proof.Machine
end

