-- ==== Sys2Proof/Machine/Store.lean ====
section
/-! DEFINITION. The shared operations of the store controller: entry to RUNNING, QUIESCED and DEGRADED, and the start-up hold
(R101, R140, R143, R145, R150). -/

namespace Sys2Proof.Machine

/-- A long command ends when it is the one in progress (R152). -/
def State.endLong (s : State) (long : LongCommand) : State :=
  if s.mgmt.long = long then { s with mgmt := { s.mgmt with long := .none } } else s

/-- A DIRTY slot's deadlines counted from the entry to RUNNING (R50). -/
def State.freshDeadlines (s : State) (i : SlotIx) : State :=
  s.modSlot i fun x =>
    { x with settle := some (s.now + s.params.settle * Config.settleUnit),
             age := some (s.now + s.params.age * Config.millisecond) }

/-- The store enters RUNNING: fresh deadlines for every DIRTY slot, then the full-page checks in age order, then high water
(R50, R53, R54, R143). That the full pages come first, and in age order, is a DESIGN CHOICE, log entry 36: R54 orders the two
checks only where one event both fills a dirty set and raises the count. The queue's offer and the grant rule follow at the end of the event. -/
def State.enterRunning (s : State) : State :=
  let m := { s with store := { s.store with state := .running, cause := none, origin := none, phase := none,
                                            holdDeadline := none } }
  let d := m.ageList.foldl State.freshDeadlines m
  (d.ageList.foldl State.fullPage d).highWater

/-- The store enters DEGRADED (R150): deadlines go, writes waiting for a slot are answered, QUIESCE ends unfinished, and with
cause ARRAY_TIMEOUT every request not yet granted is withdrawn and its readers answered. -/
def State.enterDegraded (s : State) (cause : Cause) : State :=
  let m := { s with store := { s.store with state := .degraded, cause := some cause, origin := none, phase := none,
                                            holdDeadline := none } }
  let n := (m.clearDeadlines.refuseWrites .storeFull .degraded).endLong .quiesce
  match cause with
  | .arrayTimeout => n.withdrawAll .arrayTimeout
  | .mapInvalid => n
  | .mapWriteFail => n

/-- The array port is released: AOWN falls (R101). -/
def State.releasePort (s : State) : State := { s with driven := false }

/-- The store enters QUIESCED, by the steps of R145: requests withdrawn and their readers answered, writes waiting for a slot
answered, the port released unless a grant is in progress, QUIESCE ended. A slot that step 1 makes allocatable is given to a
waiting write before step 2 (R12, R20, R38; log entry 13). -/
def State.enterQuiesced (s : State) : State :=
  let m := { s with store := { s.store with state := .quiesced } }
  let n := ((m.withdrawAll .quiesced).serveWaiting.refuseWrites .storeFull .quiesced).endLong .quiesce
  if n.owner = .none then n.releasePort else n

/-- In DRAINING, the queue empty and no commit in flight is the entry to QUIESCED (R145). -/
def State.drainCheck (s : State) : State :=
  if s.store.state = .draining ∧ s.queue = [] ∧ s.commit = none then s.enterQuiesced else s

/-- The start-up hold begins now (R140). -/
def State.beginHold (s : State) : State :=
  { s with store := { s.store with phase := some .hold, holdDeadline := some (s.now + Config.hold) } }

/-- The store waits in STARTING for the hold to begin, RESET_N high and the quiet moment reached (R140). -/
def State.holdReady (s : State) : Bool :=
  s.resetN && decide (s.store.state = .starting) && decide (s.store.phase = some .quietWait) && decide (s.store.quiet ≤ s.now)

/-- The hold begins in this event when nothing stands in its way: the quiet moment reached and no read in progress (R140). -/
def State.tryHold (s : State) : State := if s.holdReady && s.reading.isNone then s.beginHold else s

/-- The quiet moment of an abandoned engine: 160 µs after the last load, or now if no load was issued in the 160 µs before
(R84, R85). -/
def State.quietMoment (s : State) : Time :=
  match s.lastLoad with
  | none => s.now
  | some t => max s.now (t + Config.lapse)

end Sys2Proof.Machine
end

