-- ==== Sys2Proof/Machine/Arbiter.lean ====
section
/-! DEFINITION. The shared operations of the array port: attempts and their loads, the snapshot, the engine request, the grant
rule and the end of a granted read (R66 to R70, R89 to R101). -/

namespace Sys2Proof.Machine

/-! ### Attempts and loads (R70, R131) -/

/-- A first attempt on a page (R68, R109, R130). -/
def Attempt.first (target : Nat) (loadSet : OffsetSet) (bytes : Page) (order : List Nat) : Attempt :=
  { target, loadSet, bytes, number := 1, failing := none, firstFailing := none, toLoad := order, pollByte := none,
    pollDeadline := none, step := .load }

/-- The attempt that the engine or the map writer has under way: the map writer's in phase MAP_WRITE and in a granted format,
else the commit's on its target page; none in RETIRE_BACKFILL (R67, R130). -/
def State.attempt (s : State) : Option Attempt :=
  match s.writer, s.commit with
  | some w, some _ => some w.attempt
  | some w, none => if s.owner = .mapWriter then some w.attempt else none
  | none, some c =>
    match c.phase with
    | .home => some c.attempt
    | .spareLoad => some c.attempt
    | .retireBackfill => none
    | .mapWrite => none
  | none, none => none

/-- The state with the attempt under way replaced. -/
def State.setAttempt (s : State) (a : Attempt) : State :=
  match s.writer with
  | some w => { s with writer := some { w with attempt := a } }
  | none =>
    match s.commit with
    | some c => { s with commit := some { c with attempt := a } }
    | none => s

/-- The attempt after the load of its next offset: after the last load of the window the poll byte is that offset with the
value loaded there, and the step is LAPSE (R70). -/
def Attempt.loaded (a : Attempt) (k : Nat) (rest : List Nat) : Attempt :=
  { a with toLoad := rest, failing := none,
           pollByte := if rest.isEmpty then some (k, Page.byte a.bytes k) else a.pollByte,
           step := if rest.isEmpty then .lapse else .load }

/-- The next load of the window is issued (R70, R87, R90). -/
def State.issueLoad (s : State) : State :=
  match s.attempt with
  | none => s
  | some a =>
    match a.toLoad with
    | [] => s
    | k :: rest =>
      { s.setAttempt (a.loaded k rest) with
          chip := s.chip.load s.now a.target k (Page.byte a.bytes k), lastLoad := some s.now, condition := .loading }

/-! ### The engine request and the snapshot (R62, R66, R68) -/

/-- The commit engine places its request when the queue offers its head: the store RUNNING or DRAINING, the queue not empty
and no commit in flight (R62, R66). The fairness count is set to 0 (R94). -/
def State.offer (s : State) : State :=
  if s.committable ∧ s.queue ≠ [] ∧ s.commit = none ∧ s.engineReq = none then
    { s with engineReq := some .commitEngine, fairness := 0 }
  else s

/-- The grant to the commit engine: the queue head becomes COMMITTING, its dirty bytes are the snapshot, its dirty set is
emptied, the target is translated and the first load is issued (R68, R69). -/
def State.snapshot (s : State) : State :=
  match s.queue with
  | [] => s
  | i :: _ =>
    let x := s.slot i
    let page := x.page.getD 0
    let m := (s.moveTo i .committing).modSlot i fun x => { x with dirty := 0, dirtySince := none }
    let c : CommitRecord :=
      { slot := i, page, phase := .home,
        attempt := Attempt.first (s.translate page) x.dirty x.image (members x.dirty),
        backfill := 0, homeFailing := 0, spare := none, tentative := none, newlyDead := [] }
    { m with commit := some c, owner := .engine, engineReq := none, fairness := 0 }.issueLoad

/-- The engine request is granted to its placer (R93, R94, R100). -/
def State.grantEngine (s : State) : State :=
  match s.engineReq with
  | none => s
  | some .commitEngine => s.snapshot
  | some .mapWriter => { s with owner := .mapWriter, engineReq := none, fairness := 0 }.issueLoad

/-! ### The grant rule (R93 to R97) -/

/-- The array is free: the port driven, no owner, the condition IDLE; in STARTING no request is granted (R93, R100). -/
def State.arrayFree (s : State) : Bool :=
  s.driven && decide (s.owner = .none) && decide (s.condition = .idle) && decide (s.store.state ≠ .starting)

/-- The head of the request list leaves it, counted for fairness while an engine request is present (R93, R94). -/
def State.takeRequest (s : State) : State :=
  { s with requests := s.requests.tail,
           fairness := if s.engineReq.isSome then s.fairness + 1 else s.fairness }

/-- A request is granted. A fill reads the offsets still missing; with none missing it completes at once. The page is
translated here (R96, R97, R99). A slot that such a fill makes allocatable is given to a waiting write here, one that became
allocatable earlier in the event having been given before: DESIGN CHOICE, log entry 32 (R12 names the order for two slots of one
event, not for two sub-steps of it). -/
def State.grantRequest (s : State) (r : Request) : State :=
  let m := s.takeRequest
  match r with
  | .fill i =>
    let x := m.slot i
    let page := m.translate (x.page.getD 0)
    let offs := x.fillPending.getD 0 &&& ~~~x.present
    if offs = 0 then (m.completeFill i page 0).serveWaiting
    else { m with owner := .fill i, reading := some { kind := .fill i, page, offsets := offs, dropped := false } }
  | .bypass p =>
    match (m.port p).access with
    | none => m
    | some acc =>
      { m with owner := .bypass p,
               reading := some { kind := .bypass p, page := m.translate acc.page, offsets := acc.offsets, dropped := false } }

/-- The queue's offer and the grant rule, applied until the array is held or nothing is requested (R66, R93). The first
argument bounds the grants of one event; the list only shrinks, so its length and one more suffice. -/
def State.arbitrate : Nat → State → State
  | 0, s => s
  | n + 1, s =>
    let m := s.offer
    if m.arrayFree = false then m
    else if m.engineReq.isSome ∧ (m.pfw ∨ m.fairness = 4) then m.grantEngine
    else
      match m.requests with
      | r :: _ => State.arbitrate n (m.grantRequest r)
      | [] => if m.engineReq.isSome then m.grantEngine else m

/-- The end of every event: the queue offers its head and the grant rule is applied to a free array (R66, R93). -/
def State.finish (s : State) : State := State.arbitrate (s.requests.length + 1) s

/-! ### The end of a granted read (R96 to R98, R101, R140) -/

/-- The granted run of reads has ended: the owner is none; in QUIESCED the port is released (R101), in STARTING the hold may
begin (R140). -/
def State.endReading (s : State) : State :=
  let m := { s with owner := .none, reading := none }
  if m.store.state = .quiesced then m.releasePort else m.tryHold

/-- A read in progress goes on with its result dropped (R98). -/
def State.dropReading (s : State) : State :=
  { s with reading := match s.reading with
      | none => none
      | some g => some { g with dropped := true } }

end Sys2Proof.Machine
end

