-- ==== Sys2Proof/Machine/ArrayReads.lean ====
section
/-! DEFINITION. The ends of granted reads: FILL_COMPLETION and BYPASS_COMPLETION (R18, R33, R96 to R98). -/

namespace Sys2Proof.Machine

/-- The fill's result, unless it goes nowhere (R18, R98). -/
def State.landReading (s : State) (i : SlotIx) (g : Reading) : State :=
  if g.dropped then s else s.completeFill i g.page g.offsets

/-- FILL_COMPLETION: the granted fill ends; its bytes land in the slot unless the slot was freed since the grant; waiting ports
are answered, a slot become allocatable goes to a waiting write, and the grant rule is applied (R18, R96, R98). -/
def execFillCompletion (t : Time) (worn : List Host.Cell) (s : State) : Host.Outcome State Fault Refusal :=
  let m := s.tick t
  .next <|
    match m.reading with
    | some g =>
      match g.kind with
      | .fill i => (((m.observe worn).landReading i g).serveWaiting.endReading).finish
      | .bypass _ => m
      | .mapRead => m
    | none => m

/-- The byte of a bypass read at an offset: the slot's where a slot carries the page and holds the offset, else the array's
(R33). -/
def State.bypassByte (s : State) (page physical : Nat) (k : Nat) : Byte :=
  match s.lookup page with
  | some i => if (s.slot i).present.getLsbD k then Page.byte (s.slot i).image k else s.chip.read physical k
  | none => s.chip.read physical k

/-- The bypass read's result: the port in WAIT_BYPASS for it is answered with data; a dropped read delivers nothing (R33,
R98). -/
def State.deliverBypass (s : State) (p : PortId) (g : Reading) : State :=
  if g.dropped then s
  else
    match (s.port p).access with
    | some acc => s.answer p (acc.readValue (s.bypassByte acc.page g.page))
    | none => s

/-- BYPASS_COMPLETION: the granted bypass read ends, the port is answered, and the grant rule is applied (R33, R97, R98). -/
def execBypassCompletion (t : Time) (worn : List Host.Cell) (s : State) : Host.Outcome State Fault Refusal :=
  let m := s.tick t
  .next <|
    match m.reading with
    | some g =>
      match g.kind with
      | .bypass p => (((m.observe worn).deliverBypass p g).endReading).finish
      | .fill _ => m
      | .mapRead => m
    | none => m

end Sys2Proof.Machine
end

