-- ==== Sys2Proof/Machine/Flags.lean ====
section
/-! DEFINITION. The output lines and the counts that the manual derives from the state: PEND, ALERT, AOWN, the array lines and
the per-state slot counts (R91, R154 to R156, R175, R187). -/

namespace Sys2Proof.Machine

/-- A slot state that counts for PEND (R154). -/
def SlotState.undurable : SlotState → Bool
  | .free => false
  | .clean => false
  | .dirty => true
  | .sealed => true
  | .committing => true
  | .pinned => true

/-- PEND is asserted exactly when a slot is DIRTY, SEALED, COMMITTING or PINNED (R154). -/
def State.pend (s : State) : Bool := allSlots.any fun i => (s.slot i).state.undurable

/-- Some slot is PINNED. -/
def State.anyPinned (s : State) : Bool := allSlots.any fun i => decide ((s.slot i).state = .pinned)

/-- ALERT is asserted while the log holds an unread record, a slot is PINNED, or the store is DEGRADED (R155); asserted, the
open-drain output is driven low. -/
def State.alert (s : State) : Bool := decide (0 < s.log.unread) || s.anyPinned || decide (s.store.state = .degraded)

/-- AOWN is high while the part owns the array port (R91, R156). -/
def State.aown (s : State) : Bool := s.driven

/-- AA, ARD_N and ALD_N are high-impedance while the port is released, and driven, the strobes high, while it is owned (R91,
R187). -/
def State.addressHighZ (s : State) : Bool := !s.driven

/-- AD is high-impedance but during loads (R91): from the rise of RESET_N on until the first load (R187). A load window drives it
from its first load on for as long as the condition is LOADING: DESIGN CHOICE, log entry 35. -/
def State.dataHighZ (s : State) : Bool := !(s.driven && decide (s.condition = .loading))

/-- The number of slots in a state (R175). -/
def State.slotCount (s : State) (st : SlotState) : Nat := (allSlots.filter fun i => decide ((s.slot i).state = st)).length

/-- The number of spares in the dead set. -/
def Remap.deadCount (r : Remap) : Nat := ((List.range 16).filter fun k => r.dead.getLsbD k).length

/-- The free count: 16 less the live and the dead (R104). -/
def Remap.freeCount (r : Remap) : Nat := 16 - r.live.length - r.deadCount

/-- Byte 4 of the status record: PFW view, PEND, FLUSH, ALERT, AOWN from bit 0 up (11.3). -/
def State.lineLevels (s : State) : Byte :=
  (BitVec.ofBool s.pfw).setWidth 8 ||| ((BitVec.ofBool s.pend).setWidth 8 <<< 1) ||| ((BitVec.ofBool s.flushSeen).setWidth 8 <<< 2)
    ||| ((BitVec.ofBool s.alert).setWidth 8 <<< 3) ||| ((BitVec.ofBool s.aown).setWidth 8 <<< 4)

end Sys2Proof.Machine
end

