-- ==== Sys2Proof/Machine/MapRecord.lean ====
section
/-! DEFINITION. The map record: its CRC and bytes, the tests on a copy, the serial order, the selection, and the bytes a map
load holds (R123 to R128, R185). -/

namespace Sys2Proof.Machine

/-- One bit of the CRC: the register shifted left, the polynomial 1021h added when the bit shifted out differs from the data
bit (R185). -/
def crcBit (reg : BitVec 16) (bit : Bool) : BitVec 16 :=
  if reg.getLsbD 15 != bit then (reg <<< 1) ^^^ 0x1021 else reg <<< 1

/-- One byte of the CRC, most significant bit first. -/
def crcByte (reg : BitVec 16) (b : Byte) : BitVec 16 :=
  [7, 6, 5, 4, 3, 2, 1, 0].foldl (fun r k => crcBit r (b.getLsbD k)) reg

/-- The CRC of a byte list: initial value FFFFh, no final inversion (R123). -/
def crc16 (bytes : List Byte) : BitVec 16 := bytes.foldl crcByte 0xFFFF

/-- A 16-bit field, little-endian (0.6). -/
def le16 (v : BitVec 16) : List Byte := [v.setWidth 8, (v >>> 8).setWidth 8]

/-- The 16-bit field read back. -/
def word16 (lo hi : Byte) : BitVec 16 := lo.setWidth 16 ||| (hi.setWidth 16 <<< 8)

/-- The three bytes of an entry place (11.8). -/
def entryBytes (e : RemapEntry) : List Byte := le16 (BitVec.ofNat 16 e.page) ++ [BitVec.ofNat 8 e.spare.val]

/-- Offsets 0 to 53 of a record (11.8): marker, sequence, live count, dead mask and the 16 entry places. -/
def recordHead (live : List RemapEntry) (dead : BitVec 16) (sequence : BitVec 16) : List Byte :=
  ([0xA5] ++ le16 sequence ++ [BitVec.ofNat 8 live.length] ++ le16 dead ++ live.flatMap entryBytes
    ++ List.replicate 48 0xFF).take 54

/-- The 64 bytes of the record of a table (R123, R185). -/
def recordBytes (live : List RemapEntry) (dead : BitVec 16) (sequence : BitVec 16) : List Byte :=
  let head := recordHead live dead sequence
  head ++ le16 (crc16 head) ++ List.replicate 8 0xFF

/-- The blank record that MAP_FORMAT leaves in copy 1 (R135). -/
def blankBytes : List Byte := List.replicate 64 0xFF

/-- The rejection reasons (R124). -/
inductive Rejection where
  | marker
  | crc
  | count
  | spareRange
  | spareTwice
  | liveDead
  | pageTwice
  | pageRange
  deriving DecidableEq, Repr

/-- The rejection reason codes (11.1). -/
def Rejection.code : Rejection → Byte
  | .marker => 0x01
  | .crc => 0x02
  | .count => 0x03
  | .spareRange => 0x04
  | .spareTwice => 0x05
  | .liveDead => 0x06
  | .pageTwice => 0x07
  | .pageRange => 0x08

/-- The byte of a copy at an offset. -/
def copyByte (bytes : List Byte) (k : Nat) : Byte := bytes.getD k 0

/-- The sequence field of a copy. -/
def copySequence (bytes : List Byte) : BitVec 16 := word16 (copyByte bytes 1) (copyByte bytes 2)

/-- The live count field of a copy. -/
def copyCount (bytes : List Byte) : Nat := (copyByte bytes 3).toNat

/-- The dead mask field of a copy. -/
def copyDead (bytes : List Byte) : BitVec 16 := word16 (copyByte bytes 4) (copyByte bytes 5)

/-- The first `n` entry places of a copy as logical page and spare byte. -/
def copyPlaces (bytes : List Byte) (n : Nat) : List (Nat × Nat) :=
  (List.range n).map fun k =>
    ((word16 (copyByte bytes (6 + 3 * k)) (copyByte bytes (7 + 3 * k))).toNat, (copyByte bytes (8 + 3 * k)).toNat)

/-- No value stands twice in a list. -/
def noRepeat : List Nat → Bool
  | [] => true
  | x :: xs => !xs.contains x && noRepeat xs

/-- The tests of R124 in their order: the first that fails, or none for a valid copy. -/
def rejection (logical : Nat) (bytes : List Byte) : Option Rejection :=
  let places := copyPlaces bytes (copyCount bytes)
  if copyByte bytes 0 ≠ 0xA5 then some .marker
  else if word16 (copyByte bytes 54) (copyByte bytes 55) ≠ crc16 (bytes.take 54) then some .crc
  else if 16 < copyCount bytes then some .count
  else if places.any (fun e => 15 < e.2) then some .spareRange
  else if !noRepeat (places.map Prod.snd) then some .spareTwice
  else if places.any (fun e => (copyDead bytes).getLsbD e.2) then some .liveDead
  else if !noRepeat (places.map Prod.fst) then some .pageTwice
  else if places.any (fun e => logical ≤ e.1) then some .pageRange
  else none

/-- All 64 bytes read FFh (R125). -/
def isBlank (bytes : List Byte) : Bool := bytes.all fun b => b = 0xFF

/-- What a copy describes: its live entries, dead set and sequence. -/
structure CopyTable where
  live : List RemapEntry
  dead : BitVec 16
  sequence : BitVec 16
  deriving DecidableEq, Repr

/-- The table of a valid copy (R123, R185). -/
def copyTable (bytes : List Byte) : CopyTable :=
  { live := (copyPlaces bytes (copyCount bytes)).map fun e => { page := e.1, spare := Fin.ofNat 16 e.2 }
    dead := copyDead bytes
    sequence := copySequence bytes }

/-- What the loader makes of a copy: a table when it is valid or blank (a blank copy is a valid empty map with sequence 0,
R125), else its rejection reason (R124). -/
def readCopy (logical : Nat) (bytes : List Byte) : Except Rejection CopyTable :=
  if isBlank bytes then .ok { live := [], dead := 0, sequence := 0 }
  else match rejection logical bytes with
    | none => .ok (copyTable bytes)
    | some r => .error r

/-- Sequence `a` is newer than `b` in serial order (R126). -/
def newer (a b : BitVec 16) : Bool := decide (1 ≤ (a - b).toNat) && decide ((a - b).toNat ≤ 32767)

/-- The outcome of a map load (R128): a copy and its table, with the rejected copy's reason when the other was passed over;
or both reasons. -/
inductive Selection where
  | chosen (copy : Fin 2) (table : CopyTable) (rejected : Option (Fin 2 × Rejection))
  | invalid (reason0 reason1 : Rejection)

/-- The selection of R128, from the bytes of both copies and nothing else. -/
def select (logical : Nat) (bytes0 bytes1 : List Byte) : Selection :=
  match readCopy logical bytes0, readCopy logical bytes1 with
  | .ok t0, .ok t1 => if newer t1.sequence t0.sequence then .chosen 1 t1 none else .chosen 0 t0 none
  | .ok t0, .error r1 => .chosen 0 t0 (some (1, r1))
  | .error r0, .ok t1 => .chosen 1 t1 (some (0, r0))
  | .error r0, .error r1 => .invalid r0 r1

/-- The load order of a map write (R131): the offsets of the load set but 54 and 55 ascending, then 54, then 55. -/
def mapOrder (s : OffsetSet) : List Nat :=
  (members s).filter (fun k => k ≠ 54 && k ≠ 55) ++ [54, 55].filter fun k => s.getLsbD k

/-! ### The reads of a map load (R127) -/

/-- The map loader at its grant: no byte read. -/
def MapLoader.fresh : MapLoader := { copy0 := [], copy1 := [] }

/-- The copy and the offset of the loader's next read: copy 0 at offsets 0 to 63, and then copy 1 (R127). -/
def MapLoader.next (l : MapLoader) : Fin 2 × Nat :=
  if l.copy0.length < 64 then (0, l.copy0.length) else (1, l.copy1.length)

/-- The loader after its next read returned a byte (R127). -/
def MapLoader.take (l : MapLoader) (b : Byte) : MapLoader :=
  if l.copy0.length < 64 then { l with copy0 := l.copy0 ++ [b] } else { l with copy1 := l.copy1 ++ [b] }

/-- The 64 bytes of a copy when the load ends: those held, and from there on those that the array returns. -/
def heldThenRead (held : List Byte) (read : Nat → Byte) : List Byte := held ++ ((List.range 64).drop held.length).map read

end Sys2Proof.Machine
end

