-- ==== Sys2Proof/Machine/Outcome.lean ====
section
/-! DEFINITION. The shared operations of the commit engine, the retirement and the map writer: outcomes, spares, map writes and
the endings of each (R75 to R82, R106 to R116, R130 to R136). -/

namespace Sys2Proof.Machine

/-! ### Spares and the proposed table (R104, R106, R111) -/

/-- The spare is in a live entry. -/
def Remap.spareLive (r : Remap) (sp : SpareIx) : Bool := r.live.any fun e => e.spare = sp

/-- The lowest free spare: in no live entry, not dead, and not newly dead in this commit (R106). -/
def Remap.freeSpare (r : Remap) (newlyDead : List SpareIx) : Option SpareIx :=
  allSpares.find? fun sp => !r.spareLive sp && !r.dead.getLsbD sp.val && !newlyDead.contains sp

/-- An entry applied to the live entries: in place for a page already live, else at the end (R104). -/
def applyEntry (live : List RemapEntry) (e : RemapEntry) : List RemapEntry :=
  if live.any fun x => x.page = e.page then live.map fun x => if x.page = e.page then e else x else live ++ [e]

/-- The live entries of the proposed table (R111, R115). -/
def Remap.proposedLive (r : Remap) (c : CommitRecord) : List RemapEntry :=
  match c.tentative with
  | some e => applyEntry r.live e
  | none => r.live

/-- The dead set of the proposed table (R111, R115). -/
def Remap.proposedDead (r : Remap) (c : CommitRecord) : BitVec 16 := r.dead ||| spareMask c.newlyDead

/-- The proposed table adopted in memory; current copy and sequence stand (R113 steps 1 and 2, R114, R116). -/
def State.adopt (s : State) (c : CommitRecord) : State :=
  { s with remap := { s.remap with live := s.remap.proposedLive c, dead := s.remap.proposedDead c } }

/-- The written copy is made current with its sequence (R113 step 3). -/
def State.makeCurrent (s : State) (w : MapWriter) : State :=
  { s with remap := { s.remap with copy := some w.copy, sequence := w.sequence } }

/-! ### Attempts (R74, R75) -/

/-- The offsets of a list as a set. -/
def setOf : List Nat → OffsetSet
  | [] => 0
  | k :: ks => span k 1 ||| setOf ks

/-- The failing set of a verify: the offsets of the load set that read back differently (R74). -/
def Attempt.failingSet (a : Attempt) (f : Nat → Byte) : OffsetSet :=
  setOf ((members a.loadSet).filter fun k => f k ≠ Page.byte a.bytes k)

/-- The re-attempt on the failing offsets alone (R75, R131). -/
def Attempt.again (a : Attempt) (failing : OffsetSet) (order : List Nat) : Attempt :=
  { a with loadSet := failing, number := a.number + 1, failing := none,
           firstFailing := match a.firstFailing with
             | some f => some f
             | none => some failing
           toLoad := order, pollByte := none, pollDeadline := none, step := .load }

/-! ### The outcome of a commit (R77, R78, R81) -/

/-- The seal under PFW of a slot returning to DIRTY (R58). -/
def State.pfwSeal (s : State) (i : SlotIx) : State := if s.pfw then s.sealNamed i else s

/-- The slot leaves COMMITTING on success: CLEAN when nothing was written since the snapshot, else DIRTY with its deadlines and
the seal checks (R77), the seal under PFW before high water: DESIGN CHOICE, log entry 36. -/
def State.leaveCommitting (s : State) (i : SlotIx) : State :=
  if (s.slot i).dirty = 0 then s.moveTo i .clean
  else ((((s.moveTo i .dirty).giveDeadlines i).fullPage i).pfwSeal i).highWater

/-- RECOVERED, when the page that took the data needed more than one attempt (R78, R82). -/
def State.recovered (s : State) (c : CommitRecord) : State :=
  if 1 < c.attempt.number then
    s.append .recovered (some c.page) (some c.attempt.target) (some (c.attempt.number - 1))
      (BitVec.ofNat 8 (card (c.attempt.firstFailing.getD 0)))
  else s

/-- The end of a commit: the record is dropped, the array released, an allocatable slot given to a waiting write, and in
DRAINING the entry to QUIESCED checked (R12, R78, R145). -/
def State.endCommit (s : State) : State :=
  ({ s with commit := none, writer := none, owner := .none }).serveWaiting.drainCheck

/-- The success outcome (R77, R78). -/
def State.commitSucceeded (s : State) (c : CommitRecord) : State := ((s.leaveCommitting c.slot).recovered c).endCommit

/-- The bytes an outcome adds back join the dirty set; an empty dirty set takes its dirty-since time from the outcome (R81). -/
def Slot.addBack (x : Slot) (add : OffsetSet) (now : Time) : Slot :=
  { x with dirty := x.dirty ||| add, dirtySince := if x.dirty = 0 then some now else x.dirtySince }

/-- The slot becomes PINNED with the bytes added back (R81). -/
def State.pin (s : State) (i : SlotIx) (add : OffsetSet) : State :=
  (s.modSlot i fun x => x.addBack add s.now).moveTo i .pinned

/-- The PINNED record (R82, R119). -/
def State.logPinned (s : State) (c : CommitRecord) (cause : Byte) : State :=
  s.append .pinned (some c.page) (some (s.translate c.page)) (some (card (s.slot c.slot).dirty)) cause

/-! ### Map writes (R130, R133) -/

/-- The copy that is not current (R122). -/
def Remap.otherCopy (r : Remap) : Fin 2 :=
  match r.copy with
  | some c => 1 - c
  | none => 0

/-- The map writer is started on the proposed table: the copy that is not current, the next sequence, all 64 offsets; the
first load is issued (R111, R115, R130; log entry 14). -/
def State.startMapWrite (s : State) (c : CommitRecord) (purpose : MapPurpose) : State :=
  let copy := s.remap.otherCopy
  let sequence := s.remap.sequence.getD 0 + 1
  let bytes := Page.ofList (recordBytes (s.remap.proposedLive c) (s.remap.proposedDead c) sequence)
  { s with commit := some { c with phase := .mapWrite }
           writer := some { purpose, copy, sequence := some sequence,
                            attempt := Attempt.first (mapPage s.capacity copy) fullSet bytes (mapOrder fullSet) } }.issueLoad

/-! ### Retirement (R107 to R112, R115) -/

/-- The spare snapshot: the lowest free spare, all 64 image bytes, the dirty set emptied, the first load issued (R109). -/
def State.spareSnapshot (s : State) (c : CommitRecord) (sp : SpareIx) : State :=
  let a := Attempt.first (sparePage s.capacity sp) fullSet (s.slot c.slot).image (members fullSet)
  let m := s.modSlot c.slot fun x => { x with dirty := 0, dirtySince := none }
  { m with commit := some { c with phase := .spareLoad, attempt := a, spare := some sp } }.issueLoad

/-- The backfill completes: the missing bytes land, waiting ports are answered, and the spare snapshot is taken (R108). -/
def State.completeBackfill (s : State) (c : CommitRecord) : State :=
  let m := s.modSlot c.slot fun x => x.land (fun k => s.chip.read c.attempt.target k) c.backfill
  let n := m.answerWaiters c.slot
  match n.remap.freeSpare c.newlyDead with
  | some sp => n.spareSnapshot c sp
  | none => n

/-- No spare is left at the start of a retirement: the slot is PINNED with the failing offsets (R115). -/
def State.noSpareAtStart (s : State) (c : CommitRecord) (failing : OffsetSet) : State :=
  ((s.pin c.slot failing).logPinned c pinnedNoSpare).endCommit

/-- The retirement begins (R107): with a free spare the backfill reads the offsets not present, and completes here when there
are none. -/
def State.startRetirement (s : State) (c : CommitRecord) (failing : OffsetSet) : State :=
  match s.remap.freeSpare [] with
  | none => s.noSpareAtStart c failing
  | some _ =>
    let c' := { c with phase := .retireBackfill, attempt := { c.attempt with failing := some failing },
                       backfill := ~~~(s.slot c.slot).present, homeFailing := failing }
    let m := { s with commit := some c' }
    if c'.backfill = 0 then m.completeBackfill c' else m

/-- A spare success (R111): the tentative entry, the old spare of a page already remapped given up, RETIRED and, if due, the
old spare's SPARE_DEAD, then the map write. -/
def State.spareSuccess (s : State) (c : CommitRecord) (sp : SpareIx) : State :=
  let home := s.translate c.page
  let count := card c.homeFailing
  let retired := s.append .retired (some c.page) (some home) (some count) (BitVec.ofNat 8 sp.val)
  let tentative : RemapEntry := { page := c.page, spare := sp }
  match s.remap.entry c.page with
  | some e =>
    (retired.append .spareDead (some c.page) (some (sparePage s.capacity e.spare)) (some count)
      (BitVec.ofNat 8 e.spare.val)).startMapWrite
        { c with tentative := some tentative, newlyDead := c.newlyDead ++ [e.spare] } .retire
  | none => retired.startMapWrite { c with tentative := some tentative } .retire

/-- A spare death (R112): the spare joins the newly dead list, SPARE_DEAD is appended, and the next free spare takes a fresh
snapshot; with none left the dead marks are written (R115). -/
def State.spareDeath (s : State) (c : CommitRecord) (sp : SpareIx) (failing : OffsetSet) : State :=
  let c' := { c with newlyDead := c.newlyDead ++ [sp] }
  let m := s.append .spareDead (some c.page) (some (sparePage s.capacity sp)) (some (card failing)) (BitVec.ofNat 8 sp.val)
  match m.remap.freeSpare c'.newlyDead with
  | some next => m.spareSnapshot c' next
  | none => m.startMapWrite c' .deadOnly

/-! ### The endings of a map write (R113 to R115, R132) -/

/-- A map write of a commit succeeds: adoption (R113), or for DEAD_ONLY the dead marks adopted and the slot PINNED (R115). -/
def State.mapWriteSucceeded (s : State) (c : CommitRecord) (w : MapWriter) : State :=
  let m := (s.adopt c).makeCurrent w
  match w.purpose with
  | .retire => m.commitSucceeded c
  | .deadOnly => ((m.pin c.slot fullSet).logPinned c pinnedNoSpare).endCommit
  | .format0 => m
  | .format1 => m

/-- A map write of a commit fails: the table is adopted in memory only, MAP_WRITE_FAIL, DEGRADED, and then the outcome (R114,
R115, R132). -/
def State.mapWriteFailed (s : State) (c : CommitRecord) (w : MapWriter) (failing : OffsetSet) : State :=
  let m := ((s.adopt c).append .mapWriteFail (some c.page) (some w.attempt.target) (some (card failing))
    w.purpose.failDetail).enterDegraded .mapWriteFail
  match w.purpose with
  | .retire => m.commitSucceeded c
  | .deadOnly => ((m.pin c.slot fullSet).logPinned c pinnedNoSpare).endCommit
  | .format0 => m
  | .format1 => m

/-! ### MAP_FORMAT (R135, R136) -/

/-- The map writer's record for the format of copy 0 (R135). -/
def format0Writer (capacity : Fin 4) : MapWriter :=
  { purpose := .format0, copy := 0, sequence := some 1,
    attempt := Attempt.first (mapPage capacity 0) fullSet (Page.ofList (recordBytes [] 0 1)) (mapOrder fullSet) }

/-- The map writer's record for the blanking of copy 1 (R135). -/
def format1Writer (capacity : Fin 4) : MapWriter :=
  { purpose := .format1, copy := 1, sequence := none,
    attempt := Attempt.first (mapPage capacity 1) fullSet (Page.ofList blankBytes) (mapOrder fullSet) }

/-- The map writer's record is dropped and the array released. -/
def State.dropWriter (s : State) : State := { s with writer := none, owner := .none }

/-- A write of the format verifies: copy 1 follows copy 0; after copy 1 the table is empty, copy 0 current with sequence 1,
FORMATTED appended and the store RUNNING (R135). -/
def State.formatSucceeded (s : State) (w : MapWriter) : State :=
  match w.purpose with
  | .format0 => { s with writer := some (format1Writer s.capacity) }.issueLoad
  | .format1 =>
    let m := { s with remap := { live := [], dead := 0, copy := some 0, sequence := some 1 } }
    ((m.append .formatted none (some (mapPage s.capacity 0)) none 0x00).dropWriter.enterRunning).endLong .mapFormat
  | .retire => s
  | .deadOnly => s

/-- A write of the format fails: MAP_WRITE_FAIL with detail FORMAT, and the store stays DEGRADED (R136). -/
def State.formatFailed (s : State) (w : MapWriter) (failing : OffsetSet) : State :=
  ((s.append .mapWriteFail none (some w.attempt.target) (some (card failing)) w.purpose.failDetail).dropWriter).endLong .mapFormat

/-! ### The end of a verify (R74, R75, R110, R131) -/

/-- A verify on the home page (R74 to R76). -/
def State.verifyHome (s : State) (c : CommitRecord) (failing : OffsetSet) : State :=
  if failing = 0 then s.commitSucceeded c
  else if c.attempt.number ≤ s.params.retries then s.setAttempt (c.attempt.again failing (members failing))
  else s.startRetirement c failing

/-- A verify on a spare (R110 to R112). -/
def State.verifySpare (s : State) (c : CommitRecord) (sp : SpareIx) (failing : OffsetSet) : State :=
  if failing = 0 then s.spareSuccess c sp
  else if c.attempt.number ≤ s.params.retries then s.setAttempt (c.attempt.again failing (members failing))
  else s.spareDeath c sp failing

/-- A verify on a map copy (R131, R132, R135, R136). -/
def State.verifyMap (s : State) (w : MapWriter) (failing : OffsetSet) : State :=
  if failing ≠ 0 ∧ w.attempt.number ≤ s.params.retries then s.setAttempt (w.attempt.again failing (mapOrder failing))
  else
    match s.commit with
    | some c => if failing = 0 then s.mapWriteSucceeded c w else s.mapWriteFailed c w failing
    | none => if failing = 0 then s.formatSucceeded w else s.formatFailed w failing

/-- The end of the verify of the attempt under way. -/
def State.verified (s : State) (failing : OffsetSet) : State :=
  match s.writer, s.commit with
  | some w, _ => s.verifyMap w failing
  | none, some c =>
    match c.phase, c.spare with
    | .home, _ => s.verifyHome c failing
    | .spareLoad, some sp => s.verifySpare c sp failing
    | _, _ => s
  | none, none => s

/-! ### Array timeout (R80, R116, R136) -/

/-- The phase of the expiry: ARRAY_TIMEOUT's detail, the bytes added back, and the remap effect in memory (R80, R116). -/
def State.commitTimeout (s : State) (c : CommitRecord) : State :=
  let outcome (target : Nat) (detail : Byte) (m : State) (add : OffsetSet) : State :=
    let l := m.append .arrayTimeout (some c.page) (some target) none detail
    let d := ((l.pin c.slot add).logPinned c pinnedByTimeout).enterDegraded .arrayTimeout
    { d with commit := none, writer := none, owner := .none, condition := .unsettled }
  match s.writer, c.phase with
  | some w, _ => outcome w.attempt.target timeoutMap (s.adopt c) fullSet
  | none, .home => outcome c.attempt.target timeoutHome s c.attempt.loadSet
  | none, _ => outcome c.attempt.target timeoutSpare (s.adopt { c with tentative := none }) fullSet

/-- A format's poll deadline expires: the cause becomes ARRAY_TIMEOUT and the format ends (R136, R151). -/
def State.formatTimeout (s : State) (w : MapWriter) : State :=
  let m := (s.append .arrayTimeout none (some w.attempt.target) none timeoutMap).enterDegraded .arrayTimeout
  ({ m.dropWriter with condition := .unsettled }).endLong .mapFormat

end Sys2Proof.Machine
end

