-- ==== Sys2Proof/Machine/Response.lean ====
section
/-! DEFINITION. The responses of the management port, byte by byte (R172, R184, 11.1 to 11.7), and the checks that decode a
received command (R173, R174). -/

namespace Sys2Proof.Machine

/-! ### Result codes and field encodings (11.1, R184) -/

/-- The results of a command (10.4). -/
inductive Result where
  | ok
  | accepted
  | busy
  | state
  | arg
  | range
  | unknown
  | empty
  deriving DecidableEq, Repr

/-- The result codes (11.1). -/
def Result.code : Result → Byte
  | .ok => 0x00
  | .accepted => 0x01
  | .busy => 0x02
  | .state => 0x03
  | .arg => 0x04
  | .range => 0x05
  | .unknown => 0x06
  | .empty => 0x07

/-- A one-byte count. -/
def byteField (n : Nat) : Byte := BitVec.ofNat 8 n

/-- A page field: FFFFh when absent (R184). -/
def pageField : Option Nat → List Byte
  | none => [0xFF, 0xFF]
  | some p => le16 (BitVec.ofNat 16 p)

/-- A one-byte field: FFh when absent (R184). -/
def optionField : Option Nat → Byte
  | none => 0xFF
  | some n => BitVec.ofNat 8 n

/-- An offset set as eight bytes: offset k is bit k mod 8 of byte k ÷ 8 (R184). -/
def setField (s : OffsetSet) : List Byte := [0, 8, 16, 24, 32, 40, 48, 56].map fun k => s.extractLsb' k 8

/-- The response buffer takes a result, the command byte and a payload (R172). -/
def State.respond (s : State) (code : Byte) (result : Result) (payload : List Byte) : State :=
  { s with mgmt := { s.mgmt with response := result.code :: code :: payload } }

/-! ### Payloads (11.3 to 11.7) -/

/-- Bytes 2 to 20 of the status record (R175, 11.3). -/
def State.statusPayload (s : State) : List Byte :=
  [s.store.state.code, causeCode (if s.store.state = .degraded then s.store.cause else none), s.lineLevels]
    ++ ([SlotState.free, .clean, .dirty, .sealed, .committing, .pinned].map fun st => byteField (s.slotCount st))
    ++ [byteField s.queue.length, byteField s.remap.live.length, byteField s.remap.deadCount, byteField s.remap.freeCount,
        optionField (s.remap.copy.map Fin.val)]
    ++ le16 (match s.remap.copy with
        | none => 0xFFFF
        | some _ => s.remap.sequence.getD 0xFFFF)
    ++ [byteField s.log.unread, byteField s.capacity.val, s.mgmt.long.code]

/-- Bytes 2 to 30 of a slot descriptor (11.4). -/
def State.slotPayload (s : State) (i : SlotIx) : List Byte :=
  let x := s.slot i
  [byteField i.val, x.state.code] ++ pageField x.page ++ setField x.present ++ setField x.dirty
    ++ setField (x.fillPending.getD 0)
    ++ [(BitVec.ofBool x.fillPending.isSome).setWidth 8 ||| ((BitVec.ofBool x.waitA.isSome).setWidth 8 <<< 1)
        ||| ((BitVec.ofBool x.waitB.isSome).setWidth 8 <<< 2)]

/-- Bytes 2 to 7 of a remap entry (11.5). -/
def State.entryPayload (s : State) (i : Nat) (e : RemapEntry) : List Byte :=
  [byteField i] ++ pageField (some e.page) ++ [byteField e.spare.val] ++ pageField (some (sparePage s.capacity e.spare))

/-- The address field of a last-error record: three bytes, FFFFFFh when absent (11.6). -/
def addressField : Option (BitVec 17) → List Byte
  | none => [0xFF, 0xFF, 0xFF]
  | some a => [a.setWidth 8, (a >>> 8).setWidth 8, (a >>> 16).setWidth 8]

/-- Bytes 2 to 10 of a last-error record (11.6). -/
def errorPayload (port : Byte) (e : LastError) : List Byte :=
  [port, byteField e.reason.code, e.detail.code] ++ addressField e.addr
    ++ [optionField (e.size.map sizeBytes), optionField (e.write.map Bool.toNat), byteField e.count]

/-- Bytes 2 to 11 of a fault record: the record and the unread count left (11.7, R161). -/
def recordPayload (r : FaultRecord) (left : Nat) : List Byte :=
  le16 r.sequence ++ [r.kind.code] ++ pageField r.logical ++ pageField r.physical ++ [optionField r.count, r.detail, byteField left]

/-! ### Configuration parameters (R176) -/

/-- The value of a parameter by its identifier. -/
def Params.get (q : Params) (ident : Byte) : Option Nat :=
  match ident.toNat with
  | 1 => some q.settle
  | 2 => some q.age
  | 3 => some q.highwater
  | 4 => some q.stall
  | 5 => some q.retries
  | 6 => some q.aged.toNat
  | _ => none

/-- The parameters with one set. -/
def Params.set (q : Params) (ident : Byte) (value : Nat) : Params :=
  match ident.toNat with
  | 1 => { q with settle := value }
  | 2 => { q with age := value }
  | 3 => { q with highwater := value }
  | 4 => { q with stall := value }
  | 5 => { q with retries := value }
  | 6 => { q with aged := decide (value = 1) }
  | _ => q

/-- A value lies in its parameter's range (R176). -/
def paramRange (ident : Byte) (value : Nat) : Bool :=
  match ident.toNat with
  | 1 => decide (1 ≤ value) && decide (value ≤ 256)
  | 2 => decide (4 ≤ value) && decide (value ≤ 1000)
  | 3 => decide (4 ≤ value) && decide (value ≤ 32)
  | 4 => decide (1 ≤ value) && decide (value ≤ 1000)
  | 5 => decide (value ≤ 7)
  | 6 => decide (value ≤ 1)
  | _ => true

/-! ### Decoding (R173, R174) -/

/-- The number of argument bytes a command takes; none when the byte names no command (10.6). -/
def argumentCount (code : Byte) : Option Nat :=
  match code.toNat with
  | 0x01 => some 0
  | 0x02 => some 1
  | 0x03 => some 3
  | 0x04 => some 0
  | 0x05 => some 0
  | 0x06 => some 0
  | 0x07 => some 0
  | 0x08 => some 0
  | 0x09 => some 1
  | 0x0A => some 1
  | 0x0B => some 1
  | 0x0C => some 0
  | 0x0D => some 1
  | 0x0E => some 0
  | _ => none

/-- Check 4: the long command in progress forbids this long command (R174). -/
def State.longBusy (s : State) (code : Byte) : Bool :=
  match s.mgmt.long with
  | .none => false
  | .quiesce => code = 0x05 || code = 0x06 || code = 0x0E
  | .resume => code = 0x05 || code = 0x06 || code = 0x07 || code = 0x0E
  | .restart => code = 0x05 || code = 0x06 || code = 0x07 || code = 0x0E
  | .mapFormat => code = 0x05 || code = 0x06 || code = 0x07 || code = 0x0E

/-- The first argument byte. -/
def argument (args : List Byte) : Byte := args.headD 0

/-- The slot an argument below 32 names. -/
def slotOf (b : Byte) : SlotIx := Fin.ofNat 32 b.toNat

/-- Check 5: an argument lies outside the set the command takes. -/
def argumentOutside (code : Byte) (args : List Byte) : Bool :=
  let a := (argument args).toNat
  match code.toNat with
  | 0x02 => decide (a = 0) || decide (6 < a)
  | 0x03 => decide (a = 0) || decide (6 < a)
  | 0x09 => decide (31 < a)
  | 0x0A => decide (15 < a)
  | 0x0B => decide (1 < a)
  | 0x0D => decide (31 < a) && decide (a ≠ 255)
  | _ => false

/-- Check 6: the store state, the state of the slot named, or a port not yet released forbids the command. -/
def State.stateForbids (s : State) (code : Byte) (args : List Byte) : Bool :=
  match code.toNat with
  | 0x05 => decide (s.store.state ≠ .running)
  | 0x06 => decide (s.store.state ≠ .quiesced) || s.driven
  | 0x0C => !s.committable
  | 0x0D => decide (argument args ≠ 0xFF) && decide ((s.slot (slotOf (argument args))).state ≠ .pinned)
  | 0x0E => decide (s.store.state ≠ .degraded) || decide (s.store.cause ≠ some .mapInvalid)
  | _ => false

/-- The 16-bit value of a CONFIG_SET, low byte first (R176). -/
def configValue (args : List Byte) : Nat := (word16 (args.getD 1 0) (args.getD 2 0)).toNat

/-- Check 7: a CONFIG_SET value lies outside its parameter's range. -/
def valueOutside (code : Byte) (args : List Byte) : Bool :=
  decide (code = 0x03) && !paramRange (argument args) (configValue args)

/-- The checks of R173 in their order: the first that applies gives the refusal. -/
def State.refusal (s : State) (code : Byte) (args : List Byte) (overflow : Bool) : Option Result :=
  if overflow then some .arg
  else
    match argumentCount code with
    | none => some .unknown
    | some n =>
      if args.length ≠ n then some .arg
      else if s.longBusy code then some .busy
      else if argumentOutside code args then some .arg
      else if s.stateForbids code args then some .state
      else if valueOutside code args then some .range
      else none

end Sys2Proof.Machine
end

