-- ==== Sys2Proof/Machine/Commands.lean ====
section
/-! DEFINITION. The commands of the management port: UNKNOWN_COMMAND to MAP_FORMAT, each as the event that ends its write
(chapter 10). -/

namespace Sys2Proof.Machine

/-! ### The effects of the commands that passed every check -/

/-- STATUS returns the status record and changes nothing else (R175). -/
def State.doStatus (s : State) : State := s.respond 0x01 .ok s.statusPayload

/-- CONFIG_GET returns the identifier and the value in force (R176). -/
def State.doConfigGet (s : State) (args : List Byte) : State :=
  s.respond 0x02 .ok (argument args :: le16 (BitVec.ofNat 16 ((s.params.get (argument args)).getD 0)))

/-- CONFIG_SET sets the parameter; a new HIGHWATER seals at once (R54, R60, R176). -/
def State.doConfigSet (s : State) (args : List Byte) : State :=
  let m := { s with params := s.params.set (argument args) (configValue args) }
  (if argument args = 0x03 then m.highWater else m).respond 0x03 .ok
    (argument args :: le16 (BitVec.ofNat 16 (configValue args)))

/-- FLUSH takes a flush and returns the number of slots sealed (R55, R177). -/
def State.doFlush (s : State) : State := s.sealAll.respond 0x04 .ok [byteField s.ageList.length]

/-- QUIESCE: the flush, the deadlines removed, DRAINING, the long command; and with nothing queued or in flight QUIESCED in the
same event (R144, R145, R177). -/
def State.doQuiesce (s : State) : State :=
  let f := s.sealAll.clearDeadlines
  let m := { f with store := { f.store with state := .draining }, mgmt := { f.mgmt with long := .quiesce } }
  if m.queue = [] ∧ m.commit = none then m.enterQuiesced.respond 0x05 .ok [] else m.respond 0x05 .accepted []

/-- Every clean byte of a slot is invalidated: the present set is cut down to the dirty set (R21). -/
def Slot.invalidate (x : Slot) : Slot := { x with present := x.present &&& x.dirty }

/-- The invalidation of one slot at RESUME: a FREE slot is left, an emptied one released (R21). -/
def State.invalidateSlot (s : State) (i : SlotIx) : State :=
  if (s.slot i).state = .free then s else (s.modSlot i Slot.invalidate).releaseIfEmpty i

/-- RESUME: the port retaken, the slot store invalidated, STARTING with the hold beginning at once (R21, R101, R140, R147). -/
def State.doResume (s : State) : State :=
  let m := { s with mgmt := { s.mgmt with long := .resume }, driven := true, condition := .unsettled }
  let n := allSlots.foldl State.invalidateSlot m
  ({ n with store := { n.store with state := .starting, cause := none, origin := some .resume } }.beginHold).respond 0x06 .accepted []

/-- The read still in progress when RESTART takes effect: a granted fill or bypass read, or a read of the map load, its result
dropped (R102, R127). -/
def State.orphanRead (s : State) : Option Reading :=
  match s.reading with
  | some g => some { g with dropped := true }
  | none =>
    if s.owner = .mapLoader then
      let next := (s.loader.getD MapLoader.fresh).next
      some { kind := .mapRead, page := mapPage s.capacity next.1, offsets := span next.2 1, dropped := true }
    else none

/-- The condition after RESTART: UNSETTLED when a window was under way or when the port had been released (R102, R149). -/
def State.restartCondition (s : State) : Condition :=
  if s.driven = false then .unsettled
  else
    match s.condition with
    | .idle => .idle
    | .loading => .unsettled
    | .settling => .unsettled
    | .programming => .unsettled
    | .unsettled => .unsettled

/-- The ports whose reads start again at RESTART: those in WAIT_FILL and WAIT_BYPASS (R44). -/
def State.waitingReads (s : State) : List PortId :=
  [PortId.a, PortId.b].filter fun p => decide ((s.port p).state = .waitFill) || decide ((s.port p).state = .waitBypass)

/-- Steps 1 to 5 of R148, with the retaking of the port (R149) and the store's entry to STARTING. -/
def State.dropAll (s : State) : State :=
  { s with
      slots := Vector.replicate 32 Slot.reset, freeList := allSlots, recency := [], ageList := [], pinned := [], queue := []
      owner := .none, reading := s.orphanRead, condition := s.restartCondition, requests := [], engineReq := none, fairness := 0,
      driven := true
      commit := none, writer := none, loader := none, remap := Remap.reset
      store := { state := .starting, cause := none, origin := some .restart, phase := some .quietWait, holdDeadline := none,
                 quiet := s.quietMoment }
      mgmt := { s.mgmt with long := .restart } }

/-- RESTART takes effect (R24, R44, R84, R102, R148, R149, R178). -/
def State.doRestart (s : State) : State :=
  let m := (s.dropAll.serveRestarted s.waitingReads).orderRequests 0
  ((m.append .restarted none none none s.store.state.code).tryHold).respond 0x07 .accepted []

/-- The first unread record marked read, and that record (R161). -/
def markFirstUnread : List FaultRecord → List FaultRecord
  | [] => []
  | r :: rest => if r.read then r :: markFirstUnread rest else { r with read := true } :: rest

/-- LOG_READ returns the oldest unread record and marks it read; with none it returns EMPTY (R161). -/
def State.doLogRead (s : State) : State :=
  match s.log.records.find? fun r => !r.read with
  | none => s.respond 0x08 .empty []
  | some r =>
    { s with log := { s.log with records := markFirstUnread s.log.records, unread := s.log.unread - 1 } }.respond 0x08 .ok
      (recordPayload r (s.log.unread - 1))

/-- SLOT_READ returns a slot's descriptor (R179). -/
def State.doSlotRead (s : State) (args : List Byte) : State := s.respond 0x09 .ok (s.slotPayload (slotOf (argument args)))

/-- MAP_READ returns a live entry of the table in memory, or EMPTY (R120). -/
def State.doMapRead (s : State) (args : List Byte) : State :=
  match s.remap.live[(argument args).toNat]? with
  | some e => s.respond 0x0A .ok (s.entryPayload (argument args).toNat e)
  | none => s.respond 0x0A .empty []

/-- The port an argument 0 or 1 names. -/
def portOf (b : Byte) : PortId := if b = 0 then .a else .b

/-- PORT_ERROR returns a port's last-error record and clears it (R46). -/
def State.doPortError (s : State) (args : List Byte) : State :=
  let p := portOf (argument args)
  (s.modPort p fun h => { h with lastError := LastError.cleared }).respond 0x0B .ok
    (errorPayload (argument args) (s.port p).lastError)

/-- The latest dirty-since time among the listed slots. -/
def State.latestSince (s : State) : List SlotIx → Time
  | [] => 0
  | i :: rest => max ((s.slot i).dirtySince.getD 0) (s.latestSince rest)

/-- In ORDER AGED, the DIRTY slots older than the youngest retried slot are sealed first (R64). -/
def State.retrySeals (s : State) : State :=
  if s.params.aged ∧ s.pinned ≠ [] then
    (s.ageList.filter fun i => decide ((s.slot i).dirtySince.getD 0 < s.latestSince s.pinned)).foldl State.sealOne s
  else s

/-- RETRY appends every PINNED slot to the commit queue as SEALED, in ascending index (R64, R180). -/
def State.doRetry (s : State) : State :=
  (s.pinned.foldl (fun m i => m.moveTo i .sealed) s.retrySeals).respond 0x0C .ok [byteField s.pinned.length]

/-- One PINNED slot is discarded: its DISCARDED record, its fill withdrawn or, when granted, its bytes dropped on arrival, and
the slot freed (R22, R98, R160). -/
def State.discardSlot (s : State) (i : SlotIx) : State :=
  let x := s.slot i
  let l := s.append .discarded x.page (some (s.translate (x.page.getD 0))) (some (card x.dirty)) (byteField i.val)
  let d := if l.owner = .fill i then l.dropReading else l
  (d.withdrawFill i).freeSlot i

/-- The slots a DISCARD names (R180). -/
def State.discardSlots (s : State) (args : List Byte) : List SlotIx :=
  if argument args = 0xFF then s.pinned else [slotOf (argument args)]

/-- The ports waiting on one of the listed slots. -/
def State.waitersOf (s : State) (l : List SlotIx) : List PortId :=
  [PortId.a, PortId.b].filter fun p => l.any fun i => s.waitsOn i p

/-- DISCARD frees the slots named, in ascending index; then the reads that waited on them start again from their lookup and
writes waiting for a slot are served, in arrival order (R17, R22, R44, R180; log entry 15). -/
def State.doDiscard (s : State) (args : List Byte) : State :=
  let l := s.discardSlots args
  let m := l.foldl State.discardSlot s
  ((m.serveRestarted (s.waitersOf l)).orderRequests m.requests.length).respond 0x0D .ok [byteField l.length]

/-- MAP_FORMAT: the long command, the map writer on copy 0 and the engine request (R94, R135, R178). -/
def State.doMapFormat (s : State) : State :=
  { s with mgmt := { s.mgmt with long := .mapFormat }, writer := some (format0Writer s.capacity),
           engineReq := some .mapWriter, fairness := 0 }.respond 0x0E .accepted []

/-! ### The event of a command -/

/-- The effect of a command that passed every check, by its code (11.1). -/
def State.effect (s : State) (code : Byte) (args : List Byte) : State :=
  match code.toNat with
  | 0x01 => s.doStatus
  | 0x02 => s.doConfigGet args
  | 0x03 => s.doConfigSet args
  | 0x04 => s.doFlush
  | 0x05 => s.doQuiesce
  | 0x06 => s.doResume
  | 0x07 => s.doRestart
  | 0x08 => s.doLogRead
  | 0x09 => s.doSlotRead args
  | 0x0A => s.doMapRead args
  | 0x0B => s.doPortError args
  | 0x0C => s.doRetry
  | 0x0D => s.doDiscard args
  | 0x0E => s.doMapFormat
  | _ => s

/-- A received command is decoded and executed as one event: refused by the first check that applies, which changes nothing but
the response, or executed (R170, R172, R173). -/
def State.runCommand (s : State) (code : Byte) (args : List Byte) (overflow : Bool) : State :=
  match s.refusal code args overflow with
  | some r => s.respond code r []
  | none => s.effect code args

/-- A whole write of a command byte and argument bytes, taken as the one event that ends it. The port keeps at most three
argument bytes and notes that more came (R169). While RESET_N is low the port takes no write (R167). -/
def State.commandEvent (s : State) (code : Byte) (args : List Byte) : State :=
  if s.resetN then (s.runCommand code (args.take 3) (decide (3 < args.length))).finish else s

/-- UNKNOWN_COMMAND: refused with UNKNOWN, or with ARG when too many bytes came (R173). A code that names a command is not this
event (log entry 2). -/
def execUnknownCommand (t : Time) (code : Byte) (args : List Byte) (s : State) : Host.Outcome State Fault Refusal :=
  .next <| if (argumentCount code).isNone then (s.tick t).commandEvent code args else s.tick t

/-- STATUS (R175). -/
def execStatus (t : Time) (args : List Byte) (s : State) : Host.Outcome State Fault Refusal :=
  .next <| (s.tick t).commandEvent 0x01 args

/-- CONFIG_GET (R176). -/
def execConfigGet (t : Time) (args : List Byte) (s : State) : Host.Outcome State Fault Refusal :=
  .next <| (s.tick t).commandEvent 0x02 args

/-- CONFIG_SET (R176). -/
def execConfigSet (t : Time) (args : List Byte) (s : State) : Host.Outcome State Fault Refusal :=
  .next <| (s.tick t).commandEvent 0x03 args

/-- FLUSH (R177). -/
def execFlush (t : Time) (args : List Byte) (s : State) : Host.Outcome State Fault Refusal :=
  .next <| (s.tick t).commandEvent 0x04 args

/-- QUIESCE (R144, R177). -/
def execQuiesce (t : Time) (args : List Byte) (s : State) : Host.Outcome State Fault Refusal :=
  .next <| (s.tick t).commandEvent 0x05 args

/-- RESUME (R147, R177). -/
def execResume (t : Time) (args : List Byte) (s : State) : Host.Outcome State Fault Refusal :=
  .next <| (s.tick t).commandEvent 0x06 args

/-- RESTART (R148, R178). -/
def execRestart (t : Time) (args : List Byte) (s : State) : Host.Outcome State Fault Refusal :=
  .next <| (s.tick t).commandEvent 0x07 args

/-- LOG_READ (R161, R179). -/
def execLogRead (t : Time) (args : List Byte) (s : State) : Host.Outcome State Fault Refusal :=
  .next <| (s.tick t).commandEvent 0x08 args

/-- SLOT_READ (R179). -/
def execSlotRead (t : Time) (args : List Byte) (s : State) : Host.Outcome State Fault Refusal :=
  .next <| (s.tick t).commandEvent 0x09 args

/-- MAP_READ (R120, R179). -/
def execMapRead (t : Time) (args : List Byte) (s : State) : Host.Outcome State Fault Refusal :=
  .next <| (s.tick t).commandEvent 0x0A args

/-- PORT_ERROR (R46, R179). -/
def execPortError (t : Time) (args : List Byte) (s : State) : Host.Outcome State Fault Refusal :=
  .next <| (s.tick t).commandEvent 0x0B args

/-- RETRY (R64, R180). -/
def execRetry (t : Time) (args : List Byte) (s : State) : Host.Outcome State Fault Refusal :=
  .next <| (s.tick t).commandEvent 0x0C args

/-- DISCARD (R22, R180). -/
def execDiscard (t : Time) (args : List Byte) (s : State) : Host.Outcome State Fault Refusal :=
  .next <| (s.tick t).commandEvent 0x0D args

/-- MAP_FORMAT (R135, R178). -/
def execMapFormat (t : Time) (args : List Byte) (s : State) : Host.Outcome State Fault Refusal :=
  .next <| (s.tick t).commandEvent 0x0E args

end Sys2Proof.Machine
end

