-- ==== Sys2Proof/Machine/Bus.lean ====
section
/-! DEFINITION. The events of the two-wire bus: START_CONDITION, STOP_CONDITION, MISPLACED_CONDITION, ADDRESS_BYTE, DATA_BYTE,
RESPONSE_BYTE, GENERAL_CALL_BYTE and GENERAL_CALL_FLUSH (R167 to R171, R181). -/

namespace Sys2Proof.Machine

/-- The state with the management port's record changed. -/
def State.modMgmt (s : State) (f : MgmtPort → MgmtPort) : State := { s with mgmt := f s.mgmt }

/-- A general call whose byte is 04h takes a flush (R55, R181). -/
def State.endGeneralCall (s : State) : State := if s.mgmt.gcByte = some 0x04 then s.sealAll else s

/-- A write to the own address ends: with a byte received its command is executed (R170). -/
def State.endWrite (s : State) : State :=
  match s.mgmt.received with
  | [] => s
  | code :: args => s.runCommand code args s.mgmt.overflow

/-- The write that is open when a START or STOP arrives is ended first (R168). -/
def State.endOpenWrite (s : State) : State :=
  match s.mgmt.bus with
  | .receiving => s.endWrite
  | .generalCall => s.endGeneralCall
  | .idle => s
  | .transmitting => s
  | .ignoring => s

/-- After a START the port takes the address byte that follows; until then no write is open (R168; log entry 8). -/
def MgmtPort.afterStart (q : MgmtPort) : MgmtPort := { q with bus := .idle, addressDue := true }

/-- After a STOP the bus is IDLE (R168). -/
def MgmtPort.afterStop (q : MgmtPort) : MgmtPort := { q with bus := .idle, addressDue := false }

/-- START_CONDITION: an open write is ended, and the address byte follows (R168, R170). -/
def execStartCondition (t : Time) (s : State) : Host.Outcome State Fault Refusal :=
  let m := s.tick t
  .next <| if m.resetN then (m.endOpenWrite.modMgmt MgmtPort.afterStart).finish else m

/-- STOP_CONDITION: an open write is ended and the bus is IDLE (R168, R170). -/
def execStopCondition (t : Time) (s : State) : Host.Outcome State Fault Refusal :=
  let m := s.tick t
  .next <| if m.resetN then (m.endOpenWrite.modMgmt MgmtPort.afterStop).finish else m

/-- The transaction is abandoned: the collected bytes are dropped, SDA is released, and response buffer and long command keep
their values (R168). Bytes, overflow and general-call byte left from a write already ended are dropped in IDLE, TRANSMITTING and
IGNORING too: DESIGN CHOICE, log entry 34. -/
def MgmtPort.abandon (q : MgmtPort) : MgmtPort :=
  { q with received := [], overflow := false, gcByte := none, sending := false, ack := false, sda := none }

/-- MISPLACED_CONDITION: the transaction is abandoned with no command executed, and the condition is then taken as at a byte
boundary (R168). -/
def execMisplacedCondition (t : Time) (stop : Bool) (s : State) : Host.Outcome State Fault Refusal :=
  let m := s.tick t
  .next <|
    if m.resetN then m.modMgmt fun q => if stop then q.abandon.afterStop else q.abandon.afterStart else m

/-- The bus state that an address byte sets (R167, R168). -/
def MgmtPort.address (q : MgmtPort) (own : BitVec 7) (byte : Byte) : MgmtPort :=
  let r := { q with addressDue := false, sda := none }
  if byte = 0x00 then { r with bus := .generalCall, gcByte := none, ack := true }
  else if byte.extractLsb' 1 7 = own then
    if byte.getLsbD 0 then { r with bus := .transmitting, readPos := 0, sending := true, ack := true }
    else { r with bus := .receiving, received := [], overflow := false, ack := true }
  else { r with bus := .ignoring, ack := false }

/-- ADDRESS_BYTE: the byte after a START (R167, R168). -/
def execAddressByte (t : Time) (byte : Byte) (s : State) : Host.Outcome State Fault Refusal :=
  let m := s.tick t
  .next <|
    if m.resetN ∧ m.mgmt.addressDue then m.modMgmt fun q => q.address (ownAddress m.addrStrap) byte else m

/-- A data byte in RECEIVING: the first four are acknowledged and kept, a later one sets overflow (R169). -/
def MgmtPort.takeByte (q : MgmtPort) (byte : Byte) : MgmtPort :=
  if q.received.length < 4 ∧ q.overflow = false then { q with received := q.received ++ [byte], ack := true, sda := none }
  else { q with overflow := true, ack := false, sda := none }

/-- DATA_BYTE (R169). -/
def execDataByte (t : Time) (byte : Byte) (s : State) : Host.Outcome State Fault Refusal :=
  let m := s.tick t
  .next <| if m.mgmt.bus = .receiving then m.modMgmt fun q => q.takeByte byte else m

/-- A byte at or beyond the response length reads FFh (R171). -/
def MgmtPort.nextByte (q : MgmtPort) : Byte := q.response.getD q.readPos 0xFF

/-- A response byte is sent, and the master's acknowledge decides whether another follows (R171). -/
def MgmtPort.sendByte (q : MgmtPort) (ack : Bool) : MgmtPort :=
  { q with sda := some q.nextByte, ack := false, readPos := q.readPos + 1, sending := ack }

/-- RESPONSE_BYTE: while the master has acknowledged every byte so far; after that SDA is released (R171). -/
def execResponseByte (t : Time) (ack : Bool) (s : State) : Host.Outcome State Fault Refusal :=
  let m := s.tick t
  .next <|
    if m.mgmt.bus = .transmitting then
      m.modMgmt fun q => if q.sending then q.sendByte ack else { q with sda := none, ack := false }
    else m

/-- The byte after the general-call address: 04h is acknowledged and held; any other, or a further byte, is not, and the general
call is dropped (R181). -/
def MgmtPort.takeGeneral (q : MgmtPort) (byte : Byte) : MgmtPort :=
  if q.gcByte = none ∧ byte = 0x04 then { q with gcByte := some byte, ack := true, sda := none }
  else { q with bus := .ignoring, gcByte := none, ack := false, sda := none }

/-- GENERAL_CALL_BYTE (R181). -/
def execGeneralCallByte (t : Time) (byte : Byte) (s : State) : Host.Outcome State Fault Refusal :=
  let m := s.tick t
  .next <| if m.mgmt.bus = .generalCall then m.modMgmt fun q => q.takeGeneral byte else m

/-- GENERAL_CALL_FLUSH: a whole general call carrying 04h ends: a flush, without any response (R55, R57, R181). While RESET_N is
low the port takes no general call (R182). -/
def execGeneralCallFlush (t : Time) (s : State) : Host.Outcome State Fault Refusal :=
  let m := s.tick t
  .next <| if m.resetN then m.sealAll.finish else m

end Sys2Proof.Machine
end

