-- ==== Sys2Proof/Machine/CommitEvents.lean ====
section
/-! DEFINITION. The events of the commit engine and the map writer: PAGE_LOAD, LAPSE_END, POLL_READ, POLL_DEADLINE_EXPIRY,
VERIFY_COMPLETE and RETIRE_BACKFILL_COMPLETE (chapters 4, 6 and 7). -/

namespace Sys2Proof.Machine

/-- The attempt under way when it is in this step. -/
def State.attemptIn (s : State) (step : AttemptStep) : Option Attempt :=
  match s.attempt with
  | some a => if a.step = step then some a else none
  | none => none

/-- PAGE_LOAD: the next load of the window (R70, R131). -/
def execPageLoad (t : Time) (s : State) : Host.Outcome State Fault Refusal :=
  let m := s.tick t
  .next <|
    match m.attemptIn .load with
    | some _ => m.issueLoad
    | none => m

/-- The lapse of 160 µs after the part's last load has passed (R71). -/
def State.lapsePassed (s : State) : Bool := s.due (s.lastLoad.map fun l => l + Config.lapse)

/-- LAPSE_END: 160 µs after the last load the first poll is issued and the poll deadline set to 16 ms from it; the condition
passes SETTLING and becomes PROGRAMMING, the array having begun (R71, R72, R88, R90). -/
def execLapseEnd (t : Time) (s : State) : Host.Outcome State Fault Refusal :=
  let m := s.tick t
  .next <|
    match m.attemptIn .lapse with
    | some a =>
      if m.lapsePassed then
        { m.setAttempt { a with step := .poll, pollDeadline := some (m.now + Config.pollTimeout) } with
            condition := .programming, chip := m.chip.begin }
      else m
    | none => m

/-- The array at a poll read: programming has ended by this read when the outside says so or when the array's longest time is
over, and bytes may have worn (R86, R88). -/
def State.pollArray (s : State) (ended : Bool) (worn : List Host.Cell) : State :=
  ({ s with chip := if ended then s.chip.finish else s.chip.advance s.now }).observe worn

/-- POLL_READ: the loaded value with bit 7 inverted means still programming and another poll follows; any other value means
complete, the deadline goes and the verify begins (R72, R73, R90). -/
def execPollRead (t : Time) (ended : Bool) (worn : List Host.Cell) (s : State) : Host.Outcome State Fault Refusal :=
  let m := s.tick t
  .next <|
    match m.attemptIn .poll with
    | some a =>
      match a.pollByte with
      | some (k, v) =>
        let n := m.pollArray ended worn
        if n.chip.read a.target k = invert7 v then n
        else { n.setAttempt { a with step := .verify, pollByte := none, pollDeadline := none } with condition := .idle }
      | none => m
    | none => m

/-- POLL_DEADLINE_EXPIRY: an attempt still in POLL at its deadline ends its commit or format in an array timeout (R73, R80,
R136). -/
def execPollDeadlineExpiry (t : Time) (s : State) : Host.Outcome State Fault Refusal :=
  let m := s.tick t
  .next <|
    match m.attemptIn .poll with
    | some a =>
      if m.due a.pollDeadline then
        match m.commit, m.writer with
        | some c, _ => (m.commitTimeout c).finish
        | none, some w => (m.formatTimeout w).finish
        | none, none => m
      else m
    | none => m

/-- VERIFY_COMPLETE: every offset of the attempt is read back and compared with the byte loaded; the failing set decides
between success, re-attempt, retirement and the endings of a map write (R74, R75, R110, R131). -/
def execVerifyComplete (t : Time) (worn : List Host.Cell) (s : State) : Host.Outcome State Fault Refusal :=
  let m := s.tick t
  .next <|
    match m.attemptIn .verify with
    | some a =>
      let n := m.observe worn
      (n.verified (a.failingSet fun k => n.chip.read a.target k)).finish
    | none => m

/-- RETIRE_BACKFILL_COMPLETE: the backfill of a retirement completes (R108). -/
def execRetireBackfillComplete (t : Time) (worn : List Host.Cell) (s : State) : Host.Outcome State Fault Refusal :=
  let m := s.tick t
  .next <|
    match m.commit with
    | some c =>
      match c.phase with
      | .retireBackfill => ((m.observe worn).completeBackfill c).finish
      | .home => m
      | .spareLoad => m
      | .mapWrite => m
    | none => m

end Sys2Proof.Machine
end

