-- ==== Sys2Proof/Machine/HostPort.lean ====
section
/-! DEFINITION. The events of the host ports: ACCESS_ARRIVAL, REQ_REMOVED, RDY_PULSE_END, STALL_EXPIRY (chapter 2). -/

namespace Sys2Proof.Machine

/-- The port takes the access: it holds the fields as they stand now and spends this assertion of REQ (R25). -/
def State.takeAccess (s : State) (p : PortId) (acc : Access) : State :=
  { (s.modPort p fun h => { h with access := some acc, req := true, reqSpent := true }) with arrivals := s.arrivals + 1 }

/-- An access that has arrived is checked, and goes down the read path or the write path (R28, 2.4, 2.5). -/
def State.arrive (s : State) (p : PortId) (acc : Access) : State :=
  let m := s.takeAccess p acc
  match s.arrivalCheck acc with
  | some (.notReady, _) => m.answerNotReady p
  | some (reason, detail) => m.answerError p reason detail
  | none => if acc.write then m.writePath p acc else m.readPath p acc

/-- ACCESS_ARRIVAL: an IDLE port with RDY low takes the access from an unspent REQ. A REQ seen asserted again while the access
still waits only decides the handshake; one seen during an RDY pulse is not taken yet (R25, R29). -/
def execAccessArrival (t : Time) (p : PortId) (wr : Bool) (addr : BitVec 17) (size : BitVec 2) (wd : BitVec 32) (s : State) :
    Host.Outcome State Fault Refusal :=
  let m := s.tick t
  let h := m.port p
  .next <|
    if h.state ≠ .idle then m.modPort p fun h => { h with req := true, reqSpent := true }
    else if h.rdy then (if h.pulseEnd.isSome then m.modPort p fun h => { h with req := true } else m)
    else if h.reqSpent then m
    else (m.arrive p { write := wr, addr, size, data := wd, arrival := m.now, order := m.arrivals }).finish

/-- REQ_REMOVED: the answer presented to a held REQ is removed and the port is IDLE; before the answer, only the REQ level
changes (R25). -/
def execReqRemoved (t : Time) (p : PortId) (s : State) : Host.Outcome State Fault Refusal :=
  .next <| (s.tick t).modPort p fun h =>
    let low := { h with req := false, reqSpent := false }
    if h.rdy && h.pulseEnd.isNone then low.withdraw else low

/-- RDY_PULSE_END: the RDY pulse is removed once it has stood 100 ns (R25). -/
def execRdyPulseEnd (t : Time) (p : PortId) (s : State) : Host.Outcome State Fault Refusal :=
  let m := s.tick t
  .next <| if m.due (m.port p).pulseEnd then m.modPort p HostPort.withdraw else m

/-- Stall expiry in WAIT_FILL: the port leaves the slot; with no other waiter a fill not granted is withdrawn and an empty slot
released (R19, R20, R40). -/
def State.expireFill (s : State) (p : PortId) (i : SlotIx) : State :=
  let m := s.modSlot i fun x => x.setWait p none
  let n := if (m.slot i).unwaited ∧ m.requests.contains (.fill i) then (m.withdrawFill i).releaseIfEmpty i else m
  n.answerError p .stallExpired .fill

/-- Stall expiry in WAIT_BYPASS: the request is withdrawn, or its granted read goes on with its bytes discarded (R41, R98). -/
def State.expireBypass (s : State) (p : PortId) : State :=
  let m :=
    if s.requests.contains (.bypass p) then { s with requests := s.requests.erase (.bypass p) }
    else if s.owner = .bypass p then s.dropReading
    else s
  m.answerError p .stallExpired .bypass

/-- STALL_EXPIRY: a port whose stall deadline has come is answered STALL_EXPIRED, by its wait state (R39 to R42). A slot that
becomes allocatable is given to a write waiting at the other port (R12). -/
def execStallExpiry (t : Time) (p : PortId) (s : State) : Host.Outcome State Fault Refusal :=
  let m := s.tick t
  let h := m.port p
  .next <|
    if m.due h.stall then
      match h.state, h.waited with
      | .waitFill, some i => (m.expireFill p i).serveWaiting.finish
      | .waitBypass, _ => (m.expireBypass p).serveWaiting.finish
      | .waitSlot, _ => (m.answerError p .stallExpired .slot).serveWaiting.finish
      | _, _ => m
    else m

end Sys2Proof.Machine
end

