-- ==== Sys2Proof/Machine/SealEvents.lean ====
section
/-! DEFINITION. The events of the seal logic: SETTLE_EXPIRY, AGE_EXPIRY, the FLUSH edges and the PFW edges (R51, R52, R56, R58,
R153). -/

namespace Sys2Proof.Machine

/-- SETTLE_EXPIRY: a slot whose settle deadline has come is sealed (R51); a deadline moved into the future or removed is not
taken (R50, R51). -/
def execSettleExpiry (t : Time) (i : SlotIx) (s : State) : Host.Outcome State Fault Refusal :=
  let m := s.tick t
  .next <| if m.due (m.slot i).settle then (m.sealNamed i).finish else m

/-- AGE_EXPIRY: a slot whose age deadline has come is sealed, whatever its settle deadline (R52). -/
def execAgeExpiry (t : Time) (i : SlotIx) (s : State) : Host.Outcome State Fault Refusal :=
  let m := s.tick t
  .next <| if m.due (m.slot i).age then (m.sealNamed i).finish else m

/-- FLUSH_RISING_EDGE: FLUSH seen high after having last been seen low is a flush (R55, R56). Not watched while RESET_N is
low. -/
def execFlushRisingEdge (t : Time) (s : State) : Host.Outcome State Fault Refusal :=
  let m := s.tick t
  .next <| if m.resetN && !m.flushSeen then ({ m with flushSeen := true }).sealAll.finish else m

/-- FLUSH_FALLING_EDGE: the last seen level becomes low and nothing is sealed (R56). -/
def execFlushFallingEdge (t : Time) (s : State) : Host.Outcome State Fault Refusal :=
  let m := s.tick t
  .next <| if m.resetN then { m with flushSeen := false } else m

/-- PFW_ASSERTION_EDGE: every DIRTY slot is sealed in age order and writes waiting for a slot are answered WRITE_REFUSED (R38,
R58, R153). Not watched while RESET_N is low. -/
def execPfwAssertionEdge (t : Time) (s : State) : Host.Outcome State Fault Refusal :=
  let m := s.tick t
  .next <|
    if m.resetN && !m.pfw then (({ m with pfw := true }).sealAll.refuseWrites .writeRefused .powerFail).finish else m

/-- PFW_DEASSERTION_EDGE: the view becomes deasserted; nothing is sealed and no slot changes (R153). -/
def execPfwDeassertionEdge (t : Time) (s : State) : Host.Outcome State Fault Refusal :=
  let m := s.tick t
  .next <| if m.resetN then { m with pfw := false } else m

end Sys2Proof.Machine
end

