-- ==== Sys2Proof/Machine/StartEvents.lean ====
section
/-! DEFINITION. The events of the store controller and the map loader: HOLD_BEGIN, HOLD_END, MAP_LOAD_END, RESET_N_FALL and
RESET_N_RISE (chapters 7 and 8). -/

namespace Sys2Proof.Machine

/-- The read of an abandoned map load, which ends before the hold begins (R127, R140). -/
def Reading.isMapRead (g : Reading) : Bool :=
  match g.kind with
  | .mapRead => true
  | .fill _ => false
  | .bypass _ => false

/-- HOLD_BEGIN: in QUIET_WAIT, at or after the quiet moment and with no fill or bypass read in progress, the start-up hold
begins; a read of an abandoned map load has ended by then (R127, R140). -/
def execHoldBegin (t : Time) (s : State) : Host.Outcome State Fault Refusal :=
  let m := s.tick t
  .next <|
    if m.holdReady then
      match m.reading with
      | none => m.beginHold
      | some g => if g.isMapRead then { m with reading := none }.beginHold else m
    else m

/-- HOLD_END: the hold deadline expires; the phase becomes MAP_LOAD, the condition IDLE and the map loader is granted the array
(R90, R100, R127, R141). A programming cycle begun before the hold has ended by then (R88). -/
def execHoldEnd (t : Time) (s : State) : Host.Outcome State Fault Refusal :=
  let m := s.tick t
  .next <|
    if m.store.phase = some .hold ∧ m.due m.store.holdDeadline then
      { m with store := { m.store with phase := some .mapLoad, holdDeadline := none }, condition := .idle,
               owner := .mapLoader, loader := some MapLoader.fresh, chip := m.chip.advance m.now }
    else m

/-- The map loader's next read: while a map load is in flight its byte joins the bytes held. The 128th read is left to
MAP_LOAD_END, which ends the load (R127, R129). This is what a step does with no command waiting (log entries 7 and 16). -/
def State.readMap (s : State) : State :=
  match s.loader with
  | none => s
  | some l =>
    if l.copy0.length + l.copy1.length < 127 then
      { s with loader := some (l.take (s.chip.read (mapPage s.capacity l.next.1) l.next.2)) }
    else s

/-- The bytes that the loader holds of a copy. -/
def State.heldBytes (s : State) (copy : Fin 2) : List Byte :=
  match s.loader with
  | none => []
  | some l => if copy = 0 then l.copy0 else l.copy1

/-- The 64 bytes of a map copy as the loader has them at the end of the load: those held, and those its remaining reads return
(R127). -/
def State.copyBytes (s : State) (copy : Fin 2) : List Byte :=
  heldThenRead (s.heldBytes copy) fun k => s.chip.read (mapPage s.capacity copy) k

/-- The table, the records and the store state that a selection gives (R129, R142). -/
def State.applySelection (s : State) : Selection → State
  | .chosen copy table rejected =>
    let m := { s with remap := { live := table.live, dead := table.dead, copy := some copy, sequence := some table.sequence } }
    let n :=
      match rejected with
      | some (other, reason) => m.append .mapFallback none (some (mapPage s.capacity other)) none reason.code
      | none => m
    n.enterRunning
  | .invalid reason0 reason1 =>
    (({ s with remap := Remap.reset }).append .mapInvalid none (some (mapPage s.capacity 0)) (some reason1.code.toNat)
      reason0.code).enterDegraded .mapInvalid

/-- MAP_LOAD_END: the reads not made yet are made and the 128th returns; a copy is selected from the bytes of both, the table set, the loader's bytes dropped,
the array released, and the store leaves STARTING; RESTART or RESUME ends (R127 to R129, R142, R152). -/
def execMapLoadEnd (t : Time) (worn : List Host.Cell) (s : State) : Host.Outcome State Fault Refusal :=
  let m := s.tick t
  .next <|
    if m.owner = .mapLoader then
      let n := m.observe worn
      let r := { n with loader := none, owner := .none }.applySelection
        (select (logicalPages n.capacity) (n.copyBytes 0) (n.copyBytes 1))
      ((r.endLong .restart).endLong .resume).finish
    else m

/-! ### Pin reset (R157) -/

/-- A port at the fall of RESET_N: an outstanding access is answered NOT_READY (R29); of answers presented only a NOT_READY stays
(R187); the last-error record is cleared (R46). -/
def HostPort.pinReset (h : HostPort) (now : Time) : HostPort :=
  let cleared := { h with lastError := LastError.cleared }
  if h.state ≠ .idle then cleared.present now .notReady 0
  else if h.rdy ∧ h.err ∧ h.errcode = 7 then cleared
  else cleared.withdraw

/-- RESET_N_FALL: the port is released, all work dropped, outstanding accesses answered NOT_READY, and every block takes its pin
reset values. The straps, the FLUSH and PFW levels and the array keep what they hold (R23, R29, R46, R65, R85, R102, R121, R137,
R157, R165, R182). -/
def execResetNFall (t : Time) (s : State) : Host.Outcome State Fault Refusal :=
  let m := s.tick t
  .next <|
    if m.resetN then
      { m with
          resetN := false
          slots := Vector.replicate 32 Slot.reset, freeList := allSlots, recency := [], ageList := [], pinned := [], queue := []
          portA := m.portA.pinReset m.now, portB := m.portB.pinReset m.now
          owner := .none, reading := none, condition := .unsettled, requests := [], engineReq := none, fairness := 0,
          driven := false
          commit := none, writer := none, loader := none, remap := Remap.reset
          store := { state := .starting, cause := none, origin := some .pinReset, phase := some .quietWait,
                     holdDeadline := none, quiet := m.quietMoment }
          log := FaultLog.reset, params := Params.default, mgmt := MgmtPort.reset }
    else m

/-- A port at the rise of RESET_N: no access is taken from a REQ still asserted (R29). -/
def HostPort.pinRise (h : HostPort) : HostPort := { h with reqSpent := h.reqSpent || h.req }

/-- RESET_N_RISE: the straps are sampled, the FLUSH and PFW levels taken as last seen, the port driven, and STARTING entered with
origin PIN_RESET; the hold begins at the later of this moment and the quiet moment (R140, R157, R167, R186). -/
def execResetNRise (t : Time) (acap : Fin 4) (addr : BitVec 2) (flush : Bool) (pfw : Bool) (s : State) :
    Host.Outcome State Fault Refusal :=
  let m := s.tick t
  .next <|
    if m.resetN then m
    else
      { m with resetN := true, capacity := acap, addrStrap := addr, flushSeen := flush, pfw := pfw, driven := true,
               portA := m.portA.pinRise, portB := m.portB.pinRise }.tryHold

end Sys2Proof.Machine
end

