-- ==== Sys2Proof/Machine/Dispatch.lean ====
section
/-! DEFINITION. The dispatch: one arm for each command, each a direct call of its meaning. -/

namespace Sys2Proof.Machine

def exec (i : Instr) (s : State) : Host.Outcome State Fault Refusal :=
  match i with
  | .accessArrival t p wr addr size wd => Sys2Proof.Machine.execAccessArrival t p wr addr size wd s
  | .reqRemoved t p => Sys2Proof.Machine.execReqRemoved t p s
  | .rdyPulseEnd t p => Sys2Proof.Machine.execRdyPulseEnd t p s
  | .stallExpiry t p => Sys2Proof.Machine.execStallExpiry t p s
  | .fillCompletion t worn => Sys2Proof.Machine.execFillCompletion t worn s
  | .bypassCompletion t worn => Sys2Proof.Machine.execBypassCompletion t worn s
  | .settleExpiry t k => Sys2Proof.Machine.execSettleExpiry t k s
  | .ageExpiry t k => Sys2Proof.Machine.execAgeExpiry t k s
  | .flushRisingEdge t => Sys2Proof.Machine.execFlushRisingEdge t s
  | .pfwAssertionEdge t => Sys2Proof.Machine.execPfwAssertionEdge t s
  | .pfwDeassertionEdge t => Sys2Proof.Machine.execPfwDeassertionEdge t s
  | .pageLoad t => Sys2Proof.Machine.execPageLoad t s
  | .lapseEnd t => Sys2Proof.Machine.execLapseEnd t s
  | .pollRead t ended worn => Sys2Proof.Machine.execPollRead t ended worn s
  | .pollDeadlineExpiry t => Sys2Proof.Machine.execPollDeadlineExpiry t s
  | .verifyComplete t worn => Sys2Proof.Machine.execVerifyComplete t worn s
  | .retireBackfillComplete t worn => Sys2Proof.Machine.execRetireBackfillComplete t worn s
  | .holdBegin t => Sys2Proof.Machine.execHoldBegin t s
  | .holdEnd t => Sys2Proof.Machine.execHoldEnd t s
  | .mapLoadEnd t worn => Sys2Proof.Machine.execMapLoadEnd t worn s
  | .resetNFall t => Sys2Proof.Machine.execResetNFall t s
  | .resetNRise t acap addr flush pfw => Sys2Proof.Machine.execResetNRise t acap addr flush pfw s
  | .startCondition t => Sys2Proof.Machine.execStartCondition t s
  | .stopCondition t => Sys2Proof.Machine.execStopCondition t s
  | .misplacedCondition t stop => Sys2Proof.Machine.execMisplacedCondition t stop s
  | .addressByte t byte => Sys2Proof.Machine.execAddressByte t byte s
  | .dataByte t byte => Sys2Proof.Machine.execDataByte t byte s
  | .responseByte t ack => Sys2Proof.Machine.execResponseByte t ack s
  | .generalCallByte t byte => Sys2Proof.Machine.execGeneralCallByte t byte s
  | .generalCallFlush t => Sys2Proof.Machine.execGeneralCallFlush t s
  | .unknownCommand t code args => Sys2Proof.Machine.execUnknownCommand t code args s
  | .status t args => Sys2Proof.Machine.execStatus t args s
  | .configGet t args => Sys2Proof.Machine.execConfigGet t args s
  | .configSet t args => Sys2Proof.Machine.execConfigSet t args s
  | .flush t args => Sys2Proof.Machine.execFlush t args s
  | .quiesce t args => Sys2Proof.Machine.execQuiesce t args s
  | .resume t args => Sys2Proof.Machine.execResume t args s
  | .restart t args => Sys2Proof.Machine.execRestart t args s
  | .logRead t args => Sys2Proof.Machine.execLogRead t args s
  | .slotRead t args => Sys2Proof.Machine.execSlotRead t args s
  | .mapRead t args => Sys2Proof.Machine.execMapRead t args s
  | .portError t args => Sys2Proof.Machine.execPortError t args s
  | .retry t args => Sys2Proof.Machine.execRetry t args s
  | .discard t args => Sys2Proof.Machine.execDiscard t args s
  | .mapFormat t args => Sys2Proof.Machine.execMapFormat t args s
  | .flushFallingEdge t => Sys2Proof.Machine.execFlushFallingEdge t s

end Sys2Proof.Machine
end

