-- ==== Sys2Proof/Machine/Step.lean ====
section
/-! DEFINITION. One step: the command at the front of the queue is taken; with none waiting, the map loader reads on. -/

namespace Sys2Proof.Machine

/-- The command at the front of the queue runs with the rest of the queue waiting (0.6: the manual takes events one at a
time). With no command waiting the map loader makes its next read, the one thing that the part does between events; without a
map load in flight nothing happens: time is carried by the commands (log entries 1, 7 and 16). -/
def step (s : State) : Host.Outcome State Fault Refusal :=
  match s.pending with
  | [] => .next s.readMap
  | c :: rest => exec c { s with pending := rest }

/-- The state with the command that the word spells at the front of the queue; unchanged where it spells none, which is every
word here (log entry 20). -/
def State.withFetchWord (s : State) (nbits w : Nat) : State :=
  match decodeTableWord nbits w with
  | some c => { s with pending := c :: s.pending }
  | none => s

end Sys2Proof.Machine
end

