-- ==== Sys2Proof/Safety.lean ====
section
/-! DEFINITION. What holds of the part between events: the conditions that the manual states of its slots, collections, ports,
commit record, remap table, fault log and parameters at all times. Each is decidable but for the two
recursive conditions on the log. Then the terms in which the statements speak. -/

namespace Sys2Proof.Machine

/-! ### Slots and their collections -/

/-- The sets of a slot (R3). -/
abbrev Slot.setsOk (x : Slot) : Prop :=
  x.dirty &&& x.present = x.dirty ∧ (x.state = .free → x.present = 0) ∧ (x.state = .clean → x.dirty = 0) ∧
    (x.state = .dirty ∨ x.state = .sealed ∨ x.state = .pinned → x.dirty ≠ 0)

/-- The presence of a slot's fields follows its state and sets (R2). -/
abbrev Slot.fieldsOk (x : Slot) : Prop :=
  (x.page = none ↔ x.state = .free) ∧ (x.dirtySince = none ↔ x.dirty = 0) ∧
    (x.state ≠ .dirty → x.settle = none ∧ x.age = none)

/-- A collection holds exactly the slots of a state, each once (R4). -/
abbrev State.holds (s : State) (l : List SlotIx) (st : SlotState) : Prop :=
  l.Nodup ∧ ∀ i : SlotIx, i ∈ l ↔ (s.slot i).state = st

/-- Each collection holds exactly the slots of its state, each once (R4). -/
abbrev State.collectionsOk (s : State) : Prop :=
  s.holds s.freeList .free ∧ s.holds s.recency .clean ∧ s.holds s.ageList .dirty ∧ s.holds s.queue .sealed ∧
    s.holds s.pinned .pinned

/-- The free list is in ascending slot index (R5). -/
abbrev State.freeAscending (s : State) : Prop := s.freeList.Pairwise (· < ·)

/-- The pinned set is held in ascending slot index (R8, R22, R64; log entry 31). -/
abbrev State.pinnedAscending (s : State) : Prop := s.pinned.Pairwise (· < ·)

/-- The age list is in ascending order of dirty-since time, the lower index first among equals (R7). -/
abbrev State.ageOrdered (s : State) : Prop :=
  s.ageList.Pairwise fun i j => (s.slot i).dirtySince.getD 0 < (s.slot j).dirtySince.getD 0 ∨
    (s.slot i).dirtySince.getD 0 = (s.slot j).dirtySince.getD 0 ∧ i < j

/-- A FREE slot carries no page, and no page is carried twice (R2, R9). -/
abbrev State.pagesOk (s : State) : Prop :=
  (∀ i : SlotIx, (s.slot i).state = .free → (s.slot i).page = none) ∧
    ∀ i j : SlotIx, (s.slot i).page ≠ none → (s.slot i).page = (s.slot j).page → i = j

/-- A commit record exists exactly while one slot is COMMITTING, and names that slot (R67). -/
abbrev State.commitOk (s : State) : Prop :=
  ∀ i : SlotIx, (s.slot i).state = .committing ↔ s.commit.map CommitRecord.slot = some i

/-- Deadlines exist only while the store is RUNNING (R50). -/
abbrev State.deadlinesOk (s : State) : Prop :=
  s.store.state ≠ .running → ∀ i : SlotIx, (s.slot i).settle = none ∧ (s.slot i).age = none

/-! ### Ports -/

/-- The fields of a port follow its state: an access and a stall deadline in the wait states, a waited slot in WAIT_FILL (2.2,
R27). -/
abbrev HostPort.fieldsOk (h : HostPort) : Prop :=
  (h.access = none ↔ h.state = .idle) ∧ (h.stall = none ↔ h.state = .idle) ∧ (h.waited = none ↔ h.state ≠ .waitFill)

/-- A port is in the waiting ports of exactly the slot it waits on, with the offsets of its access (R2, R31). -/
abbrev State.waitOk (s : State) (p : PortId) : Prop :=
  ∀ i : SlotIx, (s.slot i).wait p = if (s.port p).waited = some i then (s.port p).access.map Access.offsets else none

/-! ### Array port, remap table, fault log, parameters -/

/-- The remap table (R104). -/
abbrev Remap.ok (r : Remap) : Prop :=
  r.live.length ≤ 16 ∧ (r.live.map RemapEntry.page).Nodup ∧ (r.live.map RemapEntry.spare).Nodup ∧
    ∀ e ∈ r.live, r.dead.getLsbD e.spare.val = false

/-- The records' sequence numbers run consecutively, the last one before `next` (R158). -/
def consecutive : List FaultRecord → BitVec 16 → Prop
  | [], _ => True
  | [r], next => r.sequence + 1 = next
  | r :: q :: rest, next => r.sequence + 1 = q.sequence ∧ consecutive (q :: rest) next

/-- A run of read records followed by a run of unread ones (R158). -/
def readThenUnread : List FaultRecord → Prop
  | [] => True
  | r :: rest => if r.read then readThenUnread rest else ∀ q ∈ rest, q.read = false

/-- The fault log: at most 16 records, consecutive sequences, read records before unread ones, and the unread count true
(R158). -/
def FaultLog.ok (l : FaultLog) : Prop :=
  l.records.length ≤ 16 ∧ consecutive l.records l.next ∧ readThenUnread l.records ∧
    l.unread = (l.records.filter fun r => !r.read).length

/-- Every parameter lies in its range (R176). -/
abbrev Params.ok (q : Params) : Prop :=
  (1 ≤ q.settle ∧ q.settle ≤ 256) ∧ (4 ≤ q.age ∧ q.age ≤ 1000) ∧ (4 ≤ q.highwater ∧ q.highwater ≤ 32) ∧
    (1 ≤ q.stall ∧ q.stall ≤ 1000) ∧ q.retries ≤ 7

/-- The store controller's fields follow the store state: a cause in DEGRADED, an origin and a phase in STARTING, a hold
deadline in HOLD (8.1, R138). -/
abbrev Store.fieldsOk (c : Store) : Prop :=
  (c.cause ≠ none ↔ c.state = .degraded) ∧ (c.origin ≠ none ↔ c.state = .starting) ∧ (c.phase ≠ none ↔ c.state = .starting) ∧
    (c.holdDeadline ≠ none ↔ c.phase = some .hold)

/-! ### The part as a whole -/

/-- The map writer writes for a commit, with purpose RETIRE or DEAD_ONLY, or for a format, with purpose FORMAT_0 or FORMAT_1 and
the store DEGRADED (R130, R135). -/
abbrev State.writerOk (s : State) : Prop :=
  ∀ w ∈ s.writer,
    (s.commit ≠ none → w.purpose = .retire ∨ w.purpose = .deadOnly) ∧
      (s.commit = none → (w.purpose = .format0 ∨ w.purpose = .format1) ∧ s.store.state = .degraded)

/-- A standing request of the commit engine: the store RUNNING or DRAINING, a slot queued, no commit in flight (R62, R66). -/
abbrev State.engineOk (s : State) : Prop :=
  s.engineReq = some .commitEngine → (s.store.state = .running ∨ s.store.state = .draining) ∧ s.queue ≠ [] ∧ s.commit = none

/-- The commit in flight: the array held, the store RUNNING or DRAINING, the record's page the slot's; the loaded bytes present in
the slot, and every byte present once the backfill is over (R67, R83, R108). -/
abbrev State.commitSound (s : State) : Prop :=
  ∀ c ∈ s.commit,
    s.owner = .engine ∧ (s.store.state = .running ∨ s.store.state = .draining) ∧ s.engineReq = none ∧
      (s.slot c.slot).page = some c.page ∧
      (c.phase = .home → s.writer = none ∧ c.attempt.loadSet ≠ 0 ∧ subset c.attempt.loadSet (s.slot c.slot).present = true) ∧
      (c.phase = .retireBackfill → s.writer = none ∧ (s.slot c.slot).present ≠ 0 ∧
        (s.slot c.slot).present ||| c.backfill = fullSet) ∧
      (c.phase = .spareLoad → s.writer = none ∧ (s.slot c.slot).present = fullSet) ∧
      (c.phase = .mapWrite → s.writer ≠ none ∧ (s.slot c.slot).present = fullSet)

/-- A FREE slot has no fill pending and no waiting port (R23). -/
abbrev State.freeSlotsOk (s : State) : Prop :=
  ∀ i : SlotIx, (s.slot i).state = .free → (s.slot i).fillPending = none ∧ (s.slot i).waitA = none ∧ (s.slot i).waitB = none

/-- Every request has its owner: a fill request the fill pending of its slot, a bypass read its port in WAIT_BYPASS (R2, R33,
R92). -/
abbrev State.requestOwners (s : State) : Prop :=
  (∀ i : SlotIx, Request.fill i ∈ s.requests → (s.slot i).fillPending ≠ none) ∧
    (Request.bypass .a ∈ s.requests → s.portA.state = .waitBypass) ∧
    (Request.bypass .b ∈ s.requests → s.portB.state = .waitBypass)

/-- The owner and the granted read name each other: a fill or bypass read under way is the owner's. Only a read that RESTART
orphaned runs on without an owner, dropped, and the start-up waits in QUIET_WAIT for its end (R96, R97, R102, R127, R140). -/
abbrev State.readingOwned (s : State) : Prop :=
  (∀ g ∈ s.reading,
    (g.dropped = true ∧ s.owner = .none ∧ s.store.state = .starting ∧ s.store.phase = some .quietWait) ∨
      (∃ i : SlotIx, g.kind = .fill i ∧ s.owner = .fill i) ∨ (g.kind = .bypass .a ∧ s.owner = .bypass .a) ∨
      (g.kind = .bypass .b ∧ s.owner = .bypass .b)) ∧
    (∀ i : SlotIx, s.owner = .fill i → s.reading.map Reading.kind = some (.fill i)) ∧
    (s.owner = .bypass .a → s.reading.map Reading.kind = some (.bypass .a)) ∧
    (s.owner = .bypass .b → s.reading.map Reading.kind = some (.bypass .b))

/-- A granted read whose result is awaited is in the request list no more; a fill's slot stands with its fill pending, a bypass
read's port is in WAIT_BYPASS (R96 to R98). -/
abbrev State.readingAwaited (s : State) : Prop :=
  ∀ g ∈ s.reading, g.dropped = false →
    (∀ i : SlotIx, g.kind = .fill i →
      (s.slot i).state ≠ .free ∧ (s.slot i).fillPending ≠ none ∧ Request.fill i ∉ s.requests) ∧
      (g.kind = .bypass .a → s.portA.state = .waitBypass ∧ Request.bypass .a ∉ s.requests) ∧
      (g.kind = .bypass .b → s.portB.state = .waitBypass ∧ Request.bypass .b ∉ s.requests)

/-- The read under way has its owner and, unless it was dropped, those that await it (R96 to R98). No read stands while the
engine, the map writer or the map loader has the array. -/
abbrev State.readingOk (s : State) : Prop := s.readingOwned ∧ s.readingAwaited

/-- No outstanding access has size 11 (R28). -/
abbrev State.sizesOk (s : State) : Prop :=
  s.portA.access.map Access.size ≠ some 3 ∧ s.portB.access.map Access.size ≠ some 3

/-- While RESET_N is low the store waits in STARTING with no work of any kind (R65, R85, R102, R137, R157). -/
abbrev State.resetOk (s : State) : Prop :=
  s.resetN = false → s.store.state = .starting ∧ s.store.phase = some .quietWait ∧ s.owner = .none ∧ s.reading = none ∧
    s.commit = none ∧ s.writer = none

/-- The map writer of a format, requesting the array or holding it: the store DEGRADED and MAP_FORMAT in progress (R130, R135). -/
abbrev State.formatOk (s : State) : Prop :=
  (s.owner = .mapWriter ∨ s.engineReq = some .mapWriter →
    s.store.state = .degraded ∧ s.writer ≠ none ∧ s.commit = none ∧ s.mgmt.long = .mapFormat) ∧
    (s.owner = .mapWriter → s.engineReq = none)

/-- The port is released only in QUIESCED and while RESET_N is low, with no owner; in STARTING only the map loader owns the
array, and only there (R91, R100, R101, R102). -/
abbrev State.driveOk (s : State) : Prop :=
  (s.driven = false → s.owner = .none ∧ (s.resetN = false ∨ s.store.state = .quiesced)) ∧
    (s.store.state = .starting → s.owner = .none ∨ s.owner = .mapLoader) ∧ (s.owner = .mapLoader → s.store.state = .starting)

/-- The map loader owns the array exactly in phase MAP_LOAD, and holds a record exactly then: the bytes read so far, copy 0 whole
before copy 1, the 128th read not yet returned (R100, R127, R137, R141). -/
abbrev State.loaderOk (s : State) : Prop :=
  (s.owner = .mapLoader ↔ s.store.phase = some .mapLoad) ∧ (s.owner = .mapLoader ↔ s.loader ≠ none) ∧
    ∀ l ∈ s.loader, l.copy0.length ≤ 64 ∧ l.copy1.length ≤ 63 ∧ (l.copy1 ≠ [] → l.copy0.length = 64)

/-- Everything the manual states of slots, collections, waits, requests and the commit in flight, together. -/
abbrev State.sound (s : State) : Prop :=
  (s.collectionsOk ∧ s.pagesOk ∧ ∀ i : SlotIx, (s.slot i).setsOk ∧ (s.slot i).fieldsOk) ∧
    (s.portA.fieldsOk ∧ s.portB.fieldsOk ∧ s.waitOk .a ∧ s.waitOk .b ∧ s.freeSlotsOk ∧ s.sizesOk) ∧
    (s.commitOk ∧ s.commitSound ∧ s.writerOk ∧ s.engineOk ∧ s.formatOk) ∧
    (s.requests.Nodup ∧ s.requestOwners ∧ s.readingOk) ∧
    s.store.fieldsOk ∧ s.driveOk ∧ s.loaderOk ∧ s.resetOk

/-! ### The terms of the statements: host ports -/

/-- The port takes the next ACCESS_ARRIVAL: IDLE, RDY low, and this REQ not used before (R25). -/
abbrev HostPort.ready (h : HostPort) : Prop := h.state = .idle ∧ h.rdy = false ∧ h.reqSpent = false

/-- The port after REQ is seen asserted and spent (R25). -/
def HostPort.requested (h : HostPort) : HostPort := { h with req := true, reqSpent := true }

/-- The port with an answer: RDY, ERR, ERRCODE and RD driven; IDLE with no access, stall deadline or waited slot; a 100 ns pulse
when REQ is not asserted; the last-error record `e` (R25, R27, R45). Without ERR, ERRCODE is 0 (log entry 33). -/
def HostPort.answering (h : HostPort) (now : Time) (reason : Reason) (rd : BitVec 32) (e : LastError) : HostPort :=
  { state := .idle, access := none, stall := none, waited := none, lastError := e, req := h.req, reqSpent := h.reqSpent,
    rdy := true, err := decide (reason ≠ .none), errcode := BitVec.ofNat 3 reason.code, rd,
    pulseEnd := if h.req then none else some (now + Config.rdyPulse) }

/-- The last-error record after an error response to an access (R45). -/
def LastError.after (e : LastError) (acc : Access) (reason : Reason) (detail : Detail) : LastError :=
  { reason, detail, addr := some acc.addr, size := some acc.size, write := some acc.write, count := min (e.count + 1) 255 }

/-- The port with an error response to an access, entered in its last-error record (R28, R45). -/
def HostPort.refusing (h : HostPort) (now : Time) (acc : Access) (reason : Reason) (detail : Detail) : HostPort :=
  h.answering now reason 0 (h.lastError.after acc reason detail)

/-- The port in a wait state with its stall deadline (R27, R39). -/
def HostPort.awaiting (h : HostPort) (st : PortState) (acc : Access) (stall : Time) (waited : Option SlotIx) : HostPort :=
  { h with state := st, access := some acc, stall := some stall, waited := waited, req := true, reqSpent := true }

/-- The access that an ACCESS_ARRIVAL brings (2.2). -/
def State.arrival (s : State) (t : Time) (wr : Bool) (addr : BitVec 17) (size : BitVec 2) (wd : BitVec 32) : Access :=
  { write := wr, addr, size, data := wd, arrival := max s.now t, order := s.arrivals }

/-- The moment and the arrival count after an ACCESS_ARRIVAL. -/
def State.taken (s : State) (t : Time) : State := { s with now := max s.now t, arrivals := s.arrivals + 1 }

/-- The access passes every arrival check (R28). -/
abbrev State.passes (s : State) (wr : Bool) (addr : BitVec 17) (size : BitVec 2) : Prop :=
  s.resetN = true ∧ size ≠ 3 ∧ addr.toNat % sizeBytes size = 0 ∧ addr.toNat < windowBytes s.capacity ∧
    (wr = true → s.pfw = false ∧ s.store.state ≠ .degraded)

/-- No write waits for a slot at either port (R12). -/
abbrev State.noWriteWaits (s : State) : Prop := s.portA.state ≠ .waitSlot ∧ s.portB.state ≠ .waitSlot

/-- No write to the page waits for a slot at either port. -/
abbrev State.noWriteWaitsFor (s : State) (page : Nat) : Prop :=
  (s.portA.state = .waitSlot → s.portA.access.map Access.page ≠ some page) ∧
    (s.portB.state = .waitSlot → s.portB.access.map Access.page ≠ some page)

/-- An event presents data to a port: RDY without ERR, and the value on RD (R25). -/
abbrev deliversTo (o : Host.Outcome State Fault Refusal) (p : PortId) (rd : BitVec 32) : Prop :=
  ∃ u, o = .next u ∧ (u.port p).rdy = true ∧ (u.port p).err = false ∧ (u.port p).rd = rd

/-! ### The terms of the statements: slots -/

/-- The slot carries the page (R9). -/
abbrev State.carries (s : State) (i : SlotIx) (page : Nat) : Prop := (s.slot i).state ≠ .free ∧ (s.slot i).page = some page

/-- The slot carries the page and no other slot does (R9). -/
abbrev State.soleCarrier (s : State) (i : SlotIx) (page : Nat) : Prop :=
  s.carries i page ∧ ∀ j : SlotIx, s.carries j page → j = i

/-- No slot carries the page (R9). -/
abbrev State.uncarried (s : State) (page : Nat) : Prop := ∀ j : SlotIx, ¬s.carries j page

/-- Every offset of an access is in the slot's present set. -/
abbrev Slot.covers (x : Slot) (addr : BitVec 17) (size : BitVec 2) : Prop :=
  ∀ k < sizeBytes size, x.present.getLsbD (addr.toNat % 64 + k) = true

/-- A CLEAN slot that an allocation may evict (R10). -/
abbrev Slot.idle (x : Slot) : Prop := x.fillPending = none ∧ x.waitA = none ∧ x.waitB = none

/-- The slot that an allocation takes: the head of the free list, else the first idle slot of the recency list (R10). -/
abbrev State.takes (s : State) (i : SlotIx) : Prop :=
  s.freeList.head? = some i ∨
    s.freeList = [] ∧ (s.slot i).idle ∧ i ∈ s.recency ∧ ∀ j ∈ s.recency.takeWhile (fun j => j ≠ i), ¬(s.slot j).idle

/-- No slot is allocatable (R10). -/
abbrev State.noneAllocatable (s : State) : Prop := s.freeList = [] ∧ ∀ j ∈ s.recency, ¬(s.slot j).idle

/-- The store is RUNNING or DRAINING. -/
abbrev State.works (s : State) : Prop := s.store.state = .running ∨ s.store.state = .draining

/-- The settle deadline given now (R48, R49): none but in RUNNING. -/
def State.newSettle (s : State) : Option Time :=
  if s.store.state = .running then some (s.now + s.params.settle * Config.settleUnit) else none

/-- The age deadline given now to a slot dirty since a moment (R48): none but in RUNNING. -/
def State.newAge (s : State) (since : Time) : Option Time :=
  if s.store.state = .running then some (max (since + s.params.age * Config.millisecond) s.now) else none

/-- The state with the listed DIRTY slots sealed in the order of the list (R47). -/
def State.sealedTo (s : State) (l : List SlotIx) : State :=
  { s with slots := Vector.ofFn fun i =>
             if i ∈ l then { s.slot i with state := .sealed, settle := none, age := none } else s.slot i
           ageList := s.ageList.filter fun j => j ∉ l
           queue := s.queue ++ l }

/-- The slots that the seal of one slot seals, in their order: in ORDER AGED every slot ahead of it first (R59). -/
def State.sealsFor (s : State) (i : SlotIx) : List SlotIx :=
  if s.params.aged then s.ageList.takeWhile (fun j => j ≠ i) ++ [i] else [i]

/-- The slots that high water seals: the oldest DIRTY slots above HIGHWATER, in RUNNING and DRAINING (R54). -/
def State.overflow (s : State) : List SlotIx :=
  if s.works then s.ageList.take (s.ageList.length - s.params.highwater) else []

/-- The slot enters DIRTY: it joins the age list at its place (R7). -/
def State.enterAgeList (s : State) (i : SlotIx) : State := { s with ageList := s.insertByAge i s.ageList }

/-- A slot that carries nothing (R2, R20, R22): the image values stand (log entry 11). -/
def Slot.emptied (x : Slot) : Slot :=
  { state := .free, page := none, image := x.image, present := 0, dirty := 0, dirtySince := none, settle := none, age := none,
    fillPending := none, waitA := none, waitB := none }

/-- A read that starts again on an allocatable slot: the slot is CLEAN with the page and nothing present, with a fill of all 64
offsets at the tail of the request list; the port waits on it with the stall deadline it had (R11, R16, R44). -/
def State.rereads (s : State) (p : PortId) (acc : Access) (j : SlotIx) : State :=
  State.setPort
    { s with freeList := s.freeList.erase j, recency := s.recency.erase j ++ [j], requests := s.requests ++ [.fill j]
             slots := s.slots.set j.val (Slot.setWait
               { (s.slot j).emptied with state := .clean, page := some acc.page, fillPending := some fullSet } p
               (some acc.offsets)) } p
    { s.port p with state := .waitFill, waited := some j }

/-! ### The terms of the statements: array port, commits, store -/

/-- The grant rule has nothing left to do: a free array has no request to grant, and an offered queue head has its engine request
(R62, R66, R93). Every event ends so. -/
abbrev State.settled (s : State) : Prop :=
  (s.arrayFree = true → s.requests = [] ∧ s.engineReq = none) ∧
    (s.works → s.queue ≠ [] → s.commit = none → s.engineReq ≠ none)

/-- The array can be read for the host (R34): neither QUIESCED nor DEGRADED with cause ARRAY_TIMEOUT. -/
abbrev State.readable (s : State) : Prop :=
  s.store.state ≠ .quiesced ∧ ¬(s.store.state = .degraded ∧ s.store.cause = some .arrayTimeout)

/-- The value of an array read after the event's observed bytes. -/
def State.reads (s : State) (worn : List Host.Cell) (page off : Nat) : Byte := (s.observe worn).chip.read page off

/-- The value of a byte of a page as the part has it: the image's where a slot carries the page and holds the offset, else the
array's at the page that translation gives (R30, R33, R43). -/
def State.newest (s : State) (worn : List Host.Cell) (page k : Nat) : Byte :=
  match (List.finRange 32).find? fun i => decide (s.carries i page) with
  | some i => if (s.slot i).present.getLsbD k then Page.byte (s.slot i).image k else s.reads worn (s.translate page) k
  | none => s.reads worn (s.translate page) k

/-- The offsets of a set at which the array does not read back the byte loaded (R74). -/
abbrev State.failsAt (s : State) (worn : List Host.Cell) (a : Attempt) (failing : OffsetSet) : Prop :=
  ∀ k < 64, failing.getLsbD k = (a.loadSet.getLsbD k && decide (s.reads worn a.target k ≠ Page.byte a.bytes k))

/-- The spare is the lowest free one, the listed spares not being free (R106). -/
abbrev Remap.lowestFree (r : Remap) (newlyDead : List SpareIx) (sp : SpareIx) : Prop :=
  (∀ e ∈ r.live, e.spare ≠ sp) ∧ r.dead.getLsbD sp.val = false ∧ sp ∉ newlyDead ∧
    ∀ q : SpareIx, q < sp → (∃ e ∈ r.live, e.spare = q) ∨ r.dead.getLsbD q.val = true ∨ q ∈ newlyDead

/-- No spare is free (R106). -/
abbrev Remap.noneFree (r : Remap) (newlyDead : List SpareIx) : Prop :=
  ∀ q : SpareIx, (∃ e ∈ r.live, e.spare = q) ∨ r.dead.getLsbD q.val = true ∨ q ∈ newlyDead

/-- An attempt in its step VERIFY, about to begin again on its failing offsets (R75, R131). -/
def Attempt.retrying (a : Attempt) (failing : OffsetSet) (order : List Nat) : Attempt :=
  { target := a.target, loadSet := failing, bytes := a.bytes, number := a.number + 1, failing := none,
    firstFailing := some (a.firstFailing.getD failing), toLoad := order, pollByte := none, pollDeadline := none, step := .load }

/-- The first attempt on a page: its window's loads in the given order (R68, R109, R130). -/
def Attempt.fresh (target : Nat) (loadSet : OffsetSet) (bytes : Page) (order : List Nat) : Attempt :=
  { target, loadSet, bytes, number := 1, failing := none, firstFailing := none, toLoad := order, pollByte := none,
    pollDeadline := none, step := .load }

/-- The load order of a map window: the offsets but 54 and 55 ascending, then 54, then 55 (R131). -/
def mapLoads (s : OffsetSet) : List Nat :=
  ((List.range 54 ++ [56, 57, 58, 59, 60, 61, 62, 63, 54, 55]).filter fun k => s.getLsbD k)

/-- The offsets of a set, ascending (R70). -/
def ascending (s : OffsetSet) : List Nat := (List.range 64).filter fun k => s.getLsbD k

/-- The array is free (R93): the port driven, no owner, the condition IDLE, and the store not STARTING. -/
abbrev State.freeArray (s : State) : Prop :=
  s.driven = true ∧ s.owner = .none ∧ s.condition = .idle ∧ s.store.state ≠ .starting

/-- The port answered with data from an image, when it has an access (R18). -/
def HostPort.servedFrom (h : HostPort) (now : Time) (image : Page) : HostPort :=
  match h.access with
  | some acc => h.answering now .none (acc.readValue fun k => Page.byte image k) h.lastError
  | none => h

/-- A fill is over on a slot, which then has this image and this present set: no fill pending, the waiting ports answered, and a
CLEAN slot that answered one at the recency tail (R18). -/
def State.fillDone (s : State) (i : SlotIx) (image : Page) (present : OffsetSet) : State :=
  let x := s.slot i
  { s with slots := s.slots.set i.val { x with image, present, fillPending := none, waitA := none, waitB := none }
           recency := if x.state = .clean ∧ (x.waitA ≠ none ∨ x.waitB ≠ none) then s.recency.erase i ++ [i] else s.recency
           portA := if x.waitA = none then s.portA else s.portA.servedFrom s.now image
           portB := if x.waitB = none then s.portB else s.portB.servedFrom s.now image }

/-- The ports that wait on a slot do so with an access whose offsets are in the given present set, and a CLEAN slot carries no
deadline. -/
abbrev State.waitersReady (s : State) (i : SlotIx) (present : OffsetSet) : Prop :=
  (subset ((s.slot i).waitA.getD 0) present = true ∧ ((s.slot i).waitA = none ∨ s.portA.access ≠ none)) ∧
    (subset ((s.slot i).waitB.getD 0) present = true ∧ ((s.slot i).waitB = none ∨ s.portB.access ≠ none)) ∧ (s.slot i).fieldsOk

/-- An image with array bytes at the listed offsets that are not present (R18, R108). -/
def Slot.filled (x : Slot) (read : Nat → Byte) (offs : OffsetSet) : Page :=
  Vector.ofFn fun k : Fin 64 =>
    if offs.getLsbD k.val ∧ x.present.getLsbD k.val = false then read k.val else Page.byte x.image k.val

/-- The slot becomes PINNED with bytes added back (R81). -/
def State.pinnedWith (s : State) (i : SlotIx) (add : OffsetSet) : State :=
  let x := s.slot i
  { s with slots := s.slots.set i.val { x with state := .pinned, settle := none, age := none, dirty := x.dirty ||| add,
                                               dirtySince := if x.dirty = 0 then some s.now else x.dirtySince }
           pinned := insertAscending i s.pinned }

/-- The PINNED record of a commit (R82). -/
def State.recordsPinned (s : State) (c : CommitRecord) (cause : Byte) : State :=
  s.append .pinned (some c.page) (some (s.translate c.page)) (some (card (s.slot c.slot).dirty)) cause

/-- The slot leaves COMMITTING on success (R77): CLEAN at the recency tail; or DIRTY at its place in the age list, with the
deadlines of a commit outcome, the full-page seal or the seal under PFW, and then high water. -/
def State.leavesCommit (s : State) (i : SlotIx) : State :=
  let x := s.slot i
  if x.dirty = 0 then
    { s with slots := s.slots.set i.val { x with state := .clean, settle := none, age := none }, recency := s.recency ++ [i] }
  else
    let y := { x with state := SlotState.dirty, settle := s.newSettle, age := s.newAge (x.dirtySince.getD s.now) }
    let m := State.enterAgeList { s with slots := s.slots.set i.val y } i
    let n := m.sealedTo (if m.works ∧ x.dirty = fullSet ∨ m.pfw = true then m.sealsFor i else [])
    n.sealedTo n.overflow

/-- RECOVERED, when the page that took the data needed more than one attempt (R78, R82). -/
def State.recordsRecovery (s : State) (c : CommitRecord) : State :=
  if c.attempt.number ≤ 1 then s
  else s.append .recovered (some c.page) (some c.attempt.target) (some (c.attempt.number - 1))
    (BitVec.ofNat 8 (card (c.attempt.firstFailing.getD 0)))

/-- The commit record is dropped and the array released (R78). -/
def State.dropsCommit (s : State) : State := { s with commit := none, writer := none, owner := .none }

/-- The spare snapshot (R109). -/
def State.loadsSpare (s : State) (c : CommitRecord) (sp : SpareIx) : State :=
  let x := s.slot c.slot
  { s with slots := s.slots.set c.slot.val { x with dirty := 0, dirtySince := none }
           commit := some { c with phase := .spareLoad, spare := some sp,
                                   attempt := Attempt.fresh (sparePage s.capacity sp) fullSet x.image (List.range 64) } }.issueLoad

/-- The proposed table (R111, R115): the tentative entry in place of the page's own, or at the end. -/
def Remap.proposed (r : Remap) (tentative : Option RemapEntry) (newlyDead : List SpareIx) : Remap :=
  { r with dead := r.dead ||| spareMask newlyDead
           live := match tentative with
             | none => r.live
             | some e => if r.live.any fun x => x.page = e.page then r.live.map fun x => if x.page = e.page then e else x
                         else r.live ++ [e] }

/-- The remap table is sound, and so is every table the commit in flight can make of it: the proposed table (R111, R115); a
tentative entry only in MAP_WRITE; the spare being loaded free (R104, R106, R109). -/
abbrev State.remapSound (s : State) : Prop :=
  s.remap.ok ∧ ∀ c ∈ s.commit,
    (s.remap.proposed c.tentative c.newlyDead).ok ∧ (c.phase ≠ .mapWrite → c.tentative = none) ∧
      (c.phase = .spareLoad → ∀ sp ∈ c.spare,
        (∀ e ∈ s.remap.live, e.spare ≠ sp) ∧ s.remap.dead.getLsbD sp.val = false ∧ sp ∉ c.newlyDead)

/-- The map writer is started on a table (R111, R115, R130). -/
def State.writesMap (s : State) (c : CommitRecord) (purpose : MapPurpose) : State :=
  let copy : Fin 2 := if s.remap.copy = some 0 then 1 else 0
  let sequence := s.remap.sequence.getD 0 + 1
  let table := s.remap.proposed c.tentative c.newlyDead
  { s with commit := some { c with phase := .mapWrite }
           writer := some { purpose, copy, sequence := some sequence,
                            attempt := Attempt.fresh (mapPage s.capacity copy) fullSet
                              (Page.ofList (recordBytes table.live table.dead sequence)) (mapLoads fullSet) } }.issueLoad

/-- The state at an event's moment, with the array bytes found changed by its reads (R86). -/
def State.seeing (s : State) (t : Time) (worn : List Host.Cell) : State := State.observe { s with now := max s.now t } worn

/-- The requests not yet granted stand as in a sound state: once each, a fill's on a slot that is CLEAN when it holds nothing, a
bypass read's on a port in WAIT_BYPASS. -/
abbrev State.withdrawable (s : State) : Prop :=
  s.requests.Nodup ∧ (s.portA.fieldsOk ∧ s.portB.fieldsOk ∧ s.waitOk .a ∧ s.waitOk .b) ∧ (s.collectionsOk ∧ s.freeAscending) ∧
    (∀ i : SlotIx, Request.fill i ∈ s.requests →
      (s.slot i).state ≠ .free ∧ ((s.slot i).present = 0 → (s.slot i).dirty = 0 → (s.slot i).state = .clean)) ∧
    (Request.bypass .a ∈ s.requests → s.portA.state = .waitBypass) ∧
    (Request.bypass .b ∈ s.requests → s.portB.state = .waitBypass)

/-- A port when every request not yet granted is withdrawn: ARRAY_UNAVAILABLE when it waits on one of them (R34, R98). -/
def State.withdrawnPort (s : State) (detail : Detail) (p : PortId) : HostPort :=
  let h := s.port p
  match h.state, h.access with
  | .waitFill, some acc =>
    if ∃ i ∈ h.waited, Request.fill i ∈ s.requests then h.refusing s.now acc .arrayUnavailable detail else h
  | .waitBypass, some acc => if Request.bypass p ∈ s.requests then h.refusing s.now acc .arrayUnavailable detail else h
  | _, _ => h

/-- Every request not yet granted withdrawn: its slot loses fill pending and waiting ports and is released when it holds nothing;
the ports that waited on one are answered (R19, R20, R34, R98). -/
def State.withdrawn (s : State) (detail : Detail) : State :=
  let empty : SlotIx → Bool := fun i => decide (Request.fill i ∈ s.requests) && decide ((s.slot i).present = 0 ∧ (s.slot i).dirty = 0)
  { s with requests := []
           freeList := (List.finRange 32).filter fun i => decide ((s.slot i).state = .free) || empty i
           recency := s.recency.filter fun i => !empty i
           slots := Vector.ofFn fun i =>
             if empty i then (s.slot i).emptied
             else if Request.fill i ∈ s.requests then { s.slot i with fillPending := none, waitA := none, waitB := none }
             else s.slot i
           portA := s.withdrawnPort detail .a, portB := s.withdrawnPort detail .b }

/-- The PINNED slots of a list discarded: a DISCARDED record for each in the order of the list, their fill requests withdrawn, a
granted one dropped, and the slots FREE (R22, R98, R160). -/
def State.discarded (s : State) (l : List SlotIx) : State :=
  { s with
      pinned := s.pinned.filter fun k => k ∉ l
      freeList := (List.finRange 32).filter fun k => decide ((s.slot k).state = .free ∨ k ∈ l)
      slots := Vector.ofFn fun k => if k ∈ l then (s.slot k).emptied else s.slot k
      requests := s.requests.filter fun r => decide (∀ k ∈ l, r ≠ .fill k)
      reading := if ∃ k ∈ l, s.owner = .fill k then s.reading.map fun g => { g with dropped := true } else s.reading
      log := (l.foldl (fun m k => m.append .discarded (s.slot k).page (some (s.translate ((s.slot k).page.getD 0)))
        (some (card (s.slot k).dirty)) (BitVec.ofNat 8 k.val)) s).log }

/-! ### The terms of the statements: commands -/

end Sys2Proof.Machine

namespace Sys2Proof

/-- The commands that can change a parameter (R176, R157): CONFIG_SET, told whole or by the bus, and RESET_N_FALL. -/
def Instr.configures : Instr → Bool
  | .configSet _ _ => true
  | .startCondition _ => true
  | .stopCondition _ => true
  | .resetNFall _ => true
  | _ => false

/-- The commands that can change the remap table in memory (R106): the ends of verifies and polls, the end of a map load,
RESTART, told whole or by the bus, and RESET_N_FALL. -/
def Instr.remaps : Instr → Bool
  | .verifyComplete _ _ => true
  | .pollDeadlineExpiry _ => true
  | .mapLoadEnd _ _ => true
  | .restart _ _ => true
  | .startCondition _ => true
  | .stopCondition _ => true
  | .resetNFall _ => true
  | _ => false

/-- The command at which straps are sampled (R186). -/
def Instr.samplesStraps : Instr → Bool
  | .resetNRise _ _ _ _ _ => true
  | _ => false

/-- The array bytes a command finds changed by wear or by another master. -/
def Instr.worn : Instr → List Host.Cell
  | .fillCompletion _ worn => worn
  | .bypassCompletion _ worn => worn
  | .pollRead _ _ worn => worn
  | .verifyComplete _ worn => worn
  | .retireBackfillComplete _ worn => worn
  | .mapLoadEnd _ worn => worn
  | _ => []

/-- The commands by which the array is found to have ended programming (log entry 5). -/
def Instr.endsProgramming : Instr → Bool
  | .pollRead _ _ _ => true
  | .holdEnd _ => true
  | _ => false

end Sys2Proof

namespace Sys2Proof.Machine

/-- The condition now ends a write of RESUME, RESTART or DISCARD (R168, R170). -/
def State.endsDropping (s : State) : Bool :=
  decide (s.mgmt.bus = .receiving) && decide (s.mgmt.received.headD 0x00 ∈ ([0x06, 0x07, 0x0D] : List Byte))

/-- The commands that take no host write to a page and end no byte's life by the host's or the supervisor's will (R43): all but a
write to the page, RESUME, RESTART and DISCARD, told whole or by the bus condition that ends their write, and RESET_N_FALL. -/
def State.keepsBytes (s : State) (page : Nat) : Instr → Bool
  | .accessArrival _ _ wr addr _ _ => !(wr && addr.toNat / 64 == page)
  | .resume _ _ => false
  | .restart _ _ => false
  | .discard _ _ => false
  | .startCondition _ => !s.endsDropping
  | .stopCondition _ => !s.endsDropping
  | .resetNFall _ => false
  | _ => true

/-- The number of argument bytes of the command codes 01h to 0Eh (10.6). -/
def argumentsOf (code : Byte) : Nat := [0, 0, 1, 3, 0, 0, 0, 0, 0, 1, 1, 1, 0, 1, 0].getD code.toNat 0

/-- Check 4 of R173, by the table of R174. -/
abbrev State.refusesLong (s : State) (code : Byte) : Prop :=
  code.toNat ∈ [5, 6, 7, 14] ∧ s.mgmt.long ≠ .none ∧ ¬(s.mgmt.long = .quiesce ∧ code = 7)

/-- Check 5 of R173: identifiers 1 to 6, slots 0 to 31, entries 0 to 15, ports 0 and 1, and FFh for DISCARD. -/
abbrev argumentRefused (code a : Byte) : Prop :=
  (code = 2 ∨ code = 3) ∧ ¬(1 ≤ a.toNat ∧ a.toNat ≤ 6) ∨ code = 9 ∧ 32 ≤ a.toNat ∨ code = 10 ∧ 16 ≤ a.toNat ∨
    code = 11 ∧ 2 ≤ a.toNat ∨ code = 13 ∧ 32 ≤ a.toNat ∧ a ≠ 0xFF

/-- Check 6 of R173: the store state, the port not yet released for RESUME, the slot not PINNED for DISCARD. -/
abbrev State.stateRefuses (s : State) (code a : Byte) : Prop :=
  code = 5 ∧ s.store.state ≠ .running ∨ code = 6 ∧ ¬(s.store.state = .quiesced ∧ s.driven = false) ∨ code = 12 ∧ ¬s.works ∨
    code = 13 ∧ a ≠ 0xFF ∧ (s.slot (Fin.ofNat 32 a.toNat)).state ≠ .pinned ∨
    code = 14 ∧ ¬(s.store.state = .degraded ∧ s.store.cause = some .mapInvalid)

/-- Check 7 of R173: the ranges of R176. -/
abbrev valueRefused (a : Byte) (v : Nat) : Prop :=
  a = 1 ∧ ¬(1 ≤ v ∧ v ≤ 256) ∨ a = 2 ∧ ¬(4 ≤ v ∧ v ≤ 1000) ∨ a = 3 ∧ ¬(4 ≤ v ∧ v ≤ 32) ∨ a = 4 ∧ ¬(1 ≤ v ∧ v ≤ 1000) ∨
    a = 5 ∧ ¬v ≤ 7 ∨ a = 6 ∧ ¬v ≤ 1

/-- The state at moment `t` with a response in the buffer (R172). -/
def State.responding (s : State) (bytes : List Byte) : State := { s with mgmt := { s.mgmt with response := bytes } }

/-- The row of the table for a whole write of a command byte and argument bytes (11.1, R173). -/
def commandRow (t : Time) (code : Byte) (args : List Byte) : Instr :=
  match code.toNat with
  | 0x01 => .status t args
  | 0x02 => .configGet t args
  | 0x03 => .configSet t args
  | 0x04 => .flush t args
  | 0x05 => .quiesce t args
  | 0x06 => .resume t args
  | 0x07 => .restart t args
  | 0x08 => .logRead t args
  | 0x09 => .slotRead t args
  | 0x0A => .mapRead t args
  | 0x0B => .portError t args
  | 0x0C => .retry t args
  | 0x0D => .discard t args
  | 0x0E => .mapFormat t args
  | _ => .unknownCommand t code args

end Sys2Proof.Machine
end

