-- ==== Sys2Proof/Certificates/Slice0/Obligations.lean ====
section
/-! DEFINITION. The statements about the IW642 for the provers. A statement of an event gives the next state as the state before
with the fields that the event changes, so that every field not named stands: that is its frame. `State.finish` is the grant rule
with which an event ends (GrantRuleOrder, GrantGivesTheArray); `State.serveWaiting` offers an allocatable slot to a waiting write
(WaitingWritesTakeAllocatableSlots); `State.seeing` is the state at the event's moment with the array bytes it finds changed. -/

open Sys2Proof
open Sys2Proof.Machine

/-- A step takes the command at the front of the queue; an empty queue idles (the model's choice, log entry 16) (00_scope 0.6
(Events)). -/
def Obligations.StepTakesFrontCommand : Prop :=
  ∀ (c : Instr) (rest : List Instr) (s : State),
      (s.pending = c :: rest → step s = exec c { s with pending := rest }) ∧ (s.pending = [] → s.loader = none → step s = .next s)

/-- Every command in every state is answered with a next state and leaves the queue alone (the model's choice, log entries 1,
2, 23) (00_scope 0.6 (Events)). That an event which cannot be taken in a state changes only the clock is the model's choice
(log entry 2), as are the clock's order (log entry 1) and the queue of waiting commands (log entry 23); 0.6 says only that
behaviour is told one event at a time. -/
def Obligations.EveryCommandCompletes : Prop :=
  ∀ (c : Instr) (s : State),
      ∃ u, exec c s = .next u ∧ u.pending = s.pending ∧ s.now ≤ u.now

/-- State.reset holds the pin reset values that the manual gives (01_page_slots 1.11, 02_host_accesses 2.2, 2.8,
03_sealing_and_the_commit_queue 3.8, 04_the_commit_engine 4.9, 05_the_array_port 5.4, 5.11, 06_spare_pages_and_the_remap_table
6.8, 07_map_pages 7.7, 08_store_states_and_sideband_lines 8.1, 8.11, 09_fault_log 9.7, 10_management_port 10.2, 10.6, 10.8,
11_formats_and_pin_summary 11.9). -/
def Obligations.ResetStateHoldsPinResetValues : Prop :=
  let s := State.reset
  (∀ i : SlotIx, s.slot i =
      { state := .free, page := none, image := Vector.replicate 64 0, present := 0, dirty := 0, dirtySince := none, settle := none
        age := none, fillPending := none, waitA := none, waitB := none }) ∧
    (s.freeList = List.finRange 32 ∧ s.recency = [] ∧ s.ageList = [] ∧ s.pinned = [] ∧ s.queue = []) ∧
    (∀ p : PortId, (s.port p).state = .idle ∧ (s.port p).access = none ∧ (s.port p).stall = none ∧ (s.port p).waited = none ∧
      (s.port p).lastError = { reason := .none, detail := .none, addr := none, size := none, write := none, count := 0 }) ∧
    (s.owner = .none ∧ s.requests = [] ∧ s.engineReq = none ∧ s.fairness = 0 ∧ s.commit = none ∧ s.writer = none ∧ s.loader = none) ∧
    s.remap = { live := [], dead := 0, copy := none, sequence := none } ∧
    (s.store.state = .starting ∧ s.store.cause = none ∧ s.store.origin = some .pinReset) ∧
    s.log = { records := [], next := 0, unread := 0 } ∧
    s.params = { settle := 8, age := 100, highwater := 24, stall := 64, retries := 3, aged := false } ∧
    (s.mgmt.bus = .idle ∧ s.mgmt.received = [] ∧ s.mgmt.overflow = false ∧ s.mgmt.gcByte = none ∧ s.mgmt.readPos = 0 ∧
      s.mgmt.response = [] ∧ s.mgmt.long = .none) ∧
    (s.reading = none ∧ s.condition = .unsettled ∧ s.driven = true) ∧
    (s.pend = false ∧ s.alert = false ∧ s.aown = true ∧ s.addressHighZ = false ∧ s.dataHighZ = true)

/-- State.reset meets every invariant that the other statements say a step keeps (01_page_slots 1.1, 1.2, 1.3,
04_the_commit_engine 4.1, 05_the_array_port 5.5, 06_spare_pages_and_the_remap_table 6.2, 09_fault_log 9.1, 10_management_port
10.6). -/
def Obligations.ResetStateMeetsTheInvariants : Prop :=
  State.reset.sound ∧ State.reset.freeAscending ∧ State.reset.log.ok ∧ Memory.wf State.reset.chip.cells = true ∧
    State.reset.params.ok ∧ State.reset.remap.ok ∧ State.reset.deadlinesOk ∧ State.reset.fairness ≤ 4 ∧ State.reset.settled ∧
    State.reset.pinnedAscending ∧ State.reset.ageOrdered ∧ State.reset.remapSound ∧ State.reset.mgmt.response.length ≤ 32 ∧
    State.reset.mgmt.received.length ≤ 4

/-- Every step keeps each collection equal to the slots of its state, and the free list, the pinned list and the age list in
order (01_page_slots 1.2, 03_sealing_and_the_commit_queue 3.7). That the pinned set is held as an ascending list is the
model's choice (log entry 31). -/
def Obligations.CollectionsFollowSlotStates : Prop :=
  ∀ (s : State) (u : State),
    s.collectionsOk →
    s.freeAscending →
    step s = .next u →
      u.collectionsOk ∧ u.freeAscending ∧ (s.pinnedAscending → u.pinnedAscending) ∧
        (s.sound → s.ageOrdered → u.ageOrdered)

/-- Every step keeps each logical page in at most one slot (01_page_slots 1.3). -/
def Obligations.NoTwoSlotsCarryOnePage : Prop :=
  ∀ (s : State) (u : State),
    s.collectionsOk →
    s.pagesOk →
    step s = .next u →
      u.pagesOk

/-- Every step keeps the fault log: at most 16 consecutive records, read ones before unread ones, and a true unread count
(09_fault_log 9.1). -/
def Obligations.FaultLogStaysInOrder : Prop :=
  ∀ (s : State) (u : State),
    s.log.ok →
    step s = .next u →
      u.log.ok

/-- Every step keeps slots, collections, waits, requests and the commit in flight sound, and leaves no grant undone
(01_page_slots 1.1, 1.2, 1.3, 02_host_accesses 2.2, 03_sealing_and_the_commit_queue 3.7, 04_the_commit_engine 4.1, 4.8,
05_the_array_port 5.5, 5.6, 5.7, 08_store_states_and_sideband_lines 8.1, 07_map_pages 7.3, 7.4). -/
def Obligations.PartStaysSound : Prop :=
  ∀ (s : State) (u : State),
    s.sound →
    step s = .next u →
      u.sound ∧ (s.settled → u.settled)

/-- Every step keeps parameter ranges, the fairness bound, the store record's fields, timers in RUNNING alone, and the array's
form (03_sealing_and_the_commit_queue 3.2, 05_the_array_port 5.2, 5.6, 08_store_states_and_sideband_lines 8.1,
10_management_port 10.3, 10.4, 10.6). -/
def Obligations.BoundsAndTimersKept : Prop :=
  ∀ (s : State) (u : State),
    step s = .next u →
      (s.params.ok → u.params.ok) ∧ (s.fairness ≤ 4 → u.fairness ≤ 4) ∧ (s.store.fieldsOk → u.store.fieldsOk) ∧
        (s.deadlinesOk → u.deadlinesOk) ∧ (s.mgmt.response.length ≤ 32 → u.mgmt.response.length ≤ 32) ∧
        (s.mgmt.received.length ≤ 4 → u.mgmt.received.length ≤ 4) ∧ (Memory.wf s.chip.cells = true → Memory.wf u.chip.cells = true)

/-- A stored byte of the array changes only at a latched offset of the latch page when programming ends, or by wear told
(05_the_array_port 5.2). That POLL_READ and HOLD_END are the commands by which programming is found ended (log entries 5 and
27), and that bytes changed by wear or by another master are told by the command that reads them (log entry 4), is the model's
choice; 5.2 gives what programming stores. -/
def Obligations.ArrayBytesChangeOnlyByProgramming : Prop :=
  ∀ (c : Instr) (s : State) (u : State) (a : Nat),
    exec c s = .next u →
    (∀ e ∈ c.worn, e.1 ≠ a) →
    (c.endsProgramming = true → ∀ e ∈ s.chip.latch, arrayAddress s.chip.latchPage e.1 ≠ a) →
      Memory.read u.chip.cells a = Memory.read s.chip.cells a

/-- The remap table, the parameters and the straps each change only in the commands the manual names for them
(06_spare_pages_and_the_remap_table 6.1, 6.2, 10_management_port 10.1, 10.6, 11_formats_and_pin_summary 11.9,
08_store_states_and_sideband_lines 8.11). -/
def Obligations.TableParametersAndStrapsChangeOnlyWhereNamed : Prop :=
  ∀ (c : Instr) (s : State) (u : State),
    exec c s = .next u →
      (c.remaps = false → u.remap = s.remap) ∧ (c.configures = false → u.params = s.params) ∧
        (c.samplesStraps = false → u.capacity = s.capacity ∧ u.addrStrap = s.addrStrap)

/-- The grant rule: the queue's offer, then the engine under PFW or after four grants, else the list's head, else the engine
(03_sealing_and_the_commit_queue 3.7, 04_the_commit_engine 4.1, 05_the_array_port 5.6). -/
def Obligations.GrantRuleOrder : Prop :=
  ∀ (s : State) (m : State) (r : Request) (rest : List Request),
    m = (if s.works ∧ s.queue ≠ [] ∧ s.commit = none ∧ s.engineReq = none then { s with engineReq := some .commitEngine, fairness := 0 } else s) →
      (¬m.freeArray → s.finish = m) ∧
        (m.freeArray → m.engineReq ≠ none → m.pfw = true ∨ m.fairness = 4 → s.finish = m.grantEngine) ∧
        (m.freeArray → m.engineReq = none ∨ m.pfw = false ∧ m.fairness ≠ 4 →
          (m.requests = r :: rest → s.finish = (m.grantRequest r).finish) ∧
          (m.requests = [] → s.finish = if m.engineReq = none then m else m.grantEngine))

/-- What a grant does: the reads of a fill or bypass, the snapshot of a commit, or the first load of a format
(04_the_commit_engine 4.2, 05_the_array_port 5.6, 5.7, 5.8). That a slot which a fill over in its grant makes allocatable goes
to a waiting write in the grant (log entry 32), ERRCODE 0 beside the data (log entry 33) and the issue of a format's first
load in its grant (log entry 14) are the model's choices. -/
def Obligations.GrantGivesTheArray : Prop :=
  ∀ (s : State) (i : SlotIx) (p : PortId) (acc : Access) (page : Nat) (rest : List Request) (later : List SlotIx),
      let x := s.slot i
      let missing := x.fillPending.getD 0 &&& ~~~x.present
      let taken := { s with requests := rest, fairness := if s.engineReq = none then s.fairness else s.fairness + 1 }
      (s.requests = .fill i :: rest → x.page = some page → missing ≠ 0 → s.grantRequest (.fill i) =
          { taken with owner := .fill i, reading := some { kind := .fill i, page := s.translate page, offsets := missing, dropped := false } }) ∧
        (s.requests = .fill i :: rest → missing = 0 → s.waitersReady i x.present →
          s.grantRequest (.fill i) = (taken.fillDone i x.image x.present).serveWaiting) ∧
        (s.requests = .bypass p :: rest → (s.port p).access = some acc → s.grantRequest (.bypass p) =
          { taken with owner := .bypass p, reading := some { kind := .bypass p, page := s.translate acc.page, offsets := acc.offsets, dropped := false } }) ∧
        (s.engineReq = some .commitEngine → s.queue = i :: later → x.state = .sealed → x.page = some page → s.grantEngine = State.issueLoad
          { s with slots := s.slots.set i.val { x with state := .committing, dirty := 0, dirtySince := none, settle := none, age := none }
                   queue := later, owner := .engine, engineReq := none, fairness := 0
                   commit := some { slot := i, page, phase := .home, backfill := 0, homeFailing := 0, spare := none, tentative := none,
                                    newlyDead := [], attempt := Attempt.fresh (s.translate page) x.dirty x.image (ascending x.dirty) } }) ∧
        (s.engineReq = some .mapWriter → s.grantEngine = State.issueLoad { s with owner := .mapWriter, engineReq := none, fairness := 0 })

/-- A write in WAIT_SLOT is served from the slot that carries its page, else given the allocatable slot, the earlier arrival
first (01_page_slots 1.3, 02_host_accesses 2.5). RD 0 and ERRCODE 0 on the OK answer (log entries 12 and 33) and the image
values kept on allocation (log entry 11) are the model's choices. -/
def Obligations.WaitingWritesTakeAllocatableSlots : Prop :=
  ∀ (s : State) (p : PortId) (acc : Access) (i : SlotIx) (accA : Access) (accB : Access),
      (s.noWriteWaits → s.serveWaiting = s) ∧
        ((s.port p).state = .waitSlot → (s.port p).access = some acc → s.uncarried acc.page → s.noneAllocatable → s.serveWrite p = s) ∧
        ((s.port p).state = .waitSlot → (s.port p).access = some acc → s.uncarried acc.page → s.takes i → s.collectionsOk →
          acc.offsets ≠ 0 →
          let m := { s with freeList := s.freeList.erase i, recency := s.recency.erase i
                            slots := s.slots.set i.val
                              { state := .dirty, page := some acc.page, image := Page.put (s.slot i).image acc.offset acc.bytes
                                present := acc.offsets, dirty := acc.offsets, dirtySince := some s.now, settle := s.newSettle
                                age := s.newAge s.now, fillPending := none, waitA := none, waitB := none } }
          let n := m.enterAgeList i
          s.serveWrite p = (n.sealedTo n.overflow).setPort p ((s.port p).answering s.now .none 0 (s.port p).lastError)) ∧
        (s.portA.access = some accA → s.portB.access = some accB →
          s.serveWaiting = if accB.order < accA.order then (s.serveWrite .b).serveWrite .a else (s.serveWrite .a).serveWrite .b) ∧
        (s.portA.access = none ∨ s.portB.access = none → s.serveWaiting = (s.serveWrite .a).serveWrite .b) ∧
        ((s.port p).state = .waitSlot → (s.port p).access = some acc → s.soleCarrier i acc.page →
          let x := (s.slot i).merge acc s.now
          let y := { x with settle := (s.slot i).settle.map fun _ => s.now + s.params.settle * Config.settleUnit }
          let z := { x with state := .dirty, settle := s.newSettle, age := s.newAge s.now }
          let m := s.setSlot i y
          let d := State.enterAgeList { s with recency := s.recency.erase i, slots := s.slots.set i.val z } i
          let ok : State → State := fun v => v.setPort p ((s.port p).answering s.now .none 0 (s.port p).lastError)
          ((s.slot i).state = .sealed ∨ (s.slot i).state = .committing ∨ (s.slot i).state = .pinned → s.serveWrite p = ok (s.setSlot i x)) ∧
          ((s.slot i).state = .dirty → ¬s.works ∨ x.dirty ≠ fullSet → s.serveWrite p = ok m) ∧
          ((s.slot i).state = .dirty → s.holds s.ageList .dirty → s.works → x.dirty = fullSet →
            s.serveWrite p = ok (m.sealedTo (m.sealsFor i))) ∧
          ((s.slot i).state = .clean → (s.slot i).fieldsOk → (s.slot i).setsOk → s.holds s.ageList .dirty →
            s.serveWrite p = ok (d.sealedTo d.overflow)))

/-- The entry to RUNNING gives every DIRTY slot fresh deadlines, then seals full pages and what stands above HIGHWATER
(08_store_states_and_sideband_lines 8.3, 03_sealing_and_the_commit_queue 3.2, 3.3, 03_sealing_and_the_commit_queue 3.6). That
the full pages are sealed before the slots above HIGHWATER, and in age order, is the model's choice (log entry 36). -/
def Obligations.EntryToRunning : Prop :=
  ∀ (s : State),
    s.holds s.ageList .dirty →
      let d := { s with
        store := { s.store with state := .running, cause := none, origin := none, phase := none, holdDeadline := none }
        slots := Vector.ofFn fun (i : SlotIx) => if (s.slot i).state = SlotState.dirty
          then { s.slot i with settle := some (s.now + s.params.settle * Config.settleUnit)
                               age := some (s.now + s.params.age * Config.millisecond) }
          else s.slot i }
      let full : SlotIx → Bool := fun i => decide ((s.slot i).dirty = fullSet)
      let f := d.sealedTo (if s.params.aged then (s.ageList.reverse.dropWhile fun i => !full i).reverse else s.ageList.filter full)
      s.enterRunning = f.sealedTo f.overflow

/-- The entry to DEGRADED: the cause, deadlines removed, waiting writes refused, QUIESCE ended, requests withdrawn at a
timeout (08_store_states_and_sideband_lines 8.7, 02_host_accesses 2.4, 2.5, 01_page_slots 1.7, 05_the_array_port 5.7). That
the waiting writes are answered before the requests are withdrawn (log entry 28) and that a released slot's image values stand
(log entry 11) are the model's choices. -/
def Obligations.EntryToDegraded : Prop :=
  ∀ (s : State) (cause : Cause) (p : PortId) (acc : Access) (i : SlotIx),
    s.portA.fieldsOk →
    s.portB.fieldsOk →
      let refused : HostPort → HostPort := fun h => match h.state, h.access with
        | .waitSlot, some acc => h.refusing s.now acc .storeFull .degraded
        | _, _ => h
      let m := { s with
        store := { s.store with state := .degraded, cause := some cause, origin := none, phase := none, holdDeadline := none }
        slots := Vector.ofFn fun i => { s.slot i with settle := none, age := none }
        portA := refused s.portA, portB := refused s.portB
        mgmt := { s.mgmt with long := if s.mgmt.long = .quiesce then .none else s.mgmt.long } }
      (cause ≠ .arrayTimeout ∨ s.requests = [] → s.enterDegraded cause = m) ∧
        (cause = .arrayTimeout → s.requests.Nodup → s.waitOk .a → s.waitOk .b → (s.enterDegraded cause).requests = [] ∧
          ((s.port p).state = .waitBypass → .bypass p ∈ s.requests → (s.port p).access = some acc →
            (s.enterDegraded cause).port p = (s.port p).refusing s.now acc .arrayUnavailable .arrayTimeout) ∧
          ((s.port p).state = .waitFill → (s.port p).waited = some i → .fill i ∈ s.requests → (s.port p).access = some acc →
            (s.enterDegraded cause).port p = (s.port p).refusing s.now acc .arrayUnavailable .arrayTimeout)) ∧
        (cause = .arrayTimeout → s.withdrawable → s.enterDegraded cause = m.withdrawn .arrayTimeout)

/-- The entry to QUIESCED, and when it is: requests withdrawn, waiting accesses refused, the port released when nothing is
being read (08_store_states_and_sideband_lines 8.4, 05_the_array_port 5.10, 02_host_accesses 2.4, 2.5, 01_page_slots 1.7,
05_the_array_port 5.7). That a slot released by the withdrawal goes to a waiting write before the writes are refused (log
entry 13), and that its image values stand (log entry 11), are the model's choices. -/
def Obligations.EntryToQuiesced : Prop :=
  ∀ (s : State) (p : PortId) (acc : Access) (i : SlotIx),
    s.portA.fieldsOk →
    s.portB.fieldsOk →
      let refused : HostPort → HostPort := fun h => match h.state, h.access with
        | .waitSlot, some acc => h.refusing s.now acc .storeFull .quiesced
        | _, _ => h
      (s.requests = [] → s.noneAllocatable → s.portA.state = .waitSlot ∨ s.portB.state = .waitSlot →
          (∀ a ∈ s.portA.access, s.portA.state = .waitSlot → s.uncarried a.page) →
          (∀ b ∈ s.portB.access, s.portB.state = .waitSlot → s.uncarried b.page) → s.enterQuiesced =
          { s with store := { s.store with state := .quiesced }, portA := refused s.portA, portB := refused s.portB
                   mgmt := { s.mgmt with long := if s.mgmt.long = .quiesce then .none else s.mgmt.long }
                   driven := if s.owner = .none then false else s.driven }) ∧
        (s.requests = [] → s.noWriteWaits → s.enterQuiesced =
          { s with store := { s.store with state := .quiesced }
                   mgmt := { s.mgmt with long := if s.mgmt.long = .quiesce then .none else s.mgmt.long }
                   driven := if s.owner = .none then false else s.driven }) ∧
        (s.requests.Nodup → s.waitOk .a → s.waitOk .b → s.enterQuiesced.requests = [] ∧
          ((s.port p).state = .waitBypass → .bypass p ∈ s.requests → (s.port p).access = some acc →
            s.enterQuiesced.port p = (s.port p).refusing s.now acc .arrayUnavailable .quiesced) ∧
          ((s.port p).state = .waitFill → (s.port p).waited = some i → .fill i ∈ s.requests → (s.port p).access = some acc →
            s.enterQuiesced.port p = (s.port p).refusing s.now acc .arrayUnavailable .quiesced)) ∧
        (s.withdrawable →
          let v := (State.withdrawn { s with store := { s.store with state := .quiesced } } .quiesced).serveWaiting
          s.enterQuiesced = { v with portA := refused v.portA, portB := refused v.portB
                                     mgmt := { s.mgmt with long := if s.mgmt.long = .quiesce then .none else s.mgmt.long }
                                     driven := if s.owner = .none then false else s.driven }) ∧
        (s.drainCheck = if s.store.state = .draining ∧ s.queue = [] ∧ s.commit = none then s.enterQuiesced else s)

/-- An append gives the record the next sequence, unread, at the tail, and a full log loses its head (R159). -/
def Obligations.FaultLogTakesOneRecord : Prop :=
  ∀ (s : State) (kind : FaultKind) (logical : Option Nat) (physical : Option Nat) (count : Option Nat) (detail : Byte)
    (head : FaultRecord) (tail : List FaultRecord),
      let r : FaultRecord := { sequence := s.log.next, kind, logical, physical, count, detail, read := false }
      let u := s.append kind logical physical count detail
      u = { s with log := u.log } ∧ u.log.next = s.log.next + 1 ∧
        (s.log.records.length < 16 → u.log.records = s.log.records ++ [r] ∧ u.log.unread = s.log.unread + 1) ∧
        (s.log.records = head :: tail → s.log.records.length = 16 → u.log.records = tail ++ [r] ∧
          u.log.unread = if head.read then s.log.unread + 1 else s.log.unread + 1 - 1) ∧
        (∀ kind' logical' physical' count' detail', (u.append kind' logical' physical' count' detail').log.records.getLast?.map
          FaultRecord.sequence = some (s.log.next + 1))

/-- An error response other than NOT_READY replaces the port's last-error record and counts to 255; no other answer touches it
(02_host_accesses 2.8). ERRCODE 0 beside data and OK is the model's choice (log entry 33). -/
def Obligations.LastErrorRecordsErrorResponses : Prop :=
  ∀ (s : State) (p : PortId) (acc : Access) (reason : Reason) (detail : Detail) (rd : BitVec 32),
    (s.port p).access = some acc →
    reason ≠ .none →
    reason ≠ .notReady →
      let h := s.port p
      s.answerError p reason detail = s.setPort p (h.answering s.now reason 0
          { reason, detail, addr := some acc.addr, size := some acc.size, write := some acc.write
            count := if h.lastError.count < 255 then h.lastError.count + 1 else 255 }) ∧
        s.answerNotReady p = s.setPort p (h.answering s.now .notReady 0 h.lastError) ∧
        s.answer p rd = s.setPort p (h.answering s.now .none rd h.lastError) ∧
        (s.answerError p reason detail).alert = s.alert

/-- Data lanes: the byte at the address is on the lowest lane, a write sets exactly its bytes, a read drives 0 beyond its size
(02_host_accesses 2.1, 01_page_slots 1.4, 1.5). -/
def Obligations.DataLanesCarryBytesLittleEndian : Prop :=
  ∀ (acc : Access) (f : Nat → Byte) (x : Slot) (now : Time) (k : Nat),
    acc.size ≠ 3 →
    acc.addr.toNat % sizeBytes acc.size = 0 →
      let y := x.merge acc now
      (k < 4 → (acc.readValue f).extractLsb' (8 * k) 8 = if k < sizeBytes acc.size then f (acc.offset + k) else 0) ∧
        (k < sizeBytes acc.size → Page.byte y.image (acc.offset + k) = acc.data.extractLsb' (8 * k) 8 ∧
          y.present.getLsbD (acc.offset + k) = true ∧ y.dirty.getLsbD (acc.offset + k) = true) ∧
        (k < acc.offset ∨ acc.offset + sizeBytes acc.size ≤ k → Page.byte y.image k = Page.byte x.image k ∧
          y.present.getLsbD k = x.present.getLsbD k ∧ y.dirty.getLsbD k = x.dirty.getLsbD k) ∧
        y = { x with image := y.image, present := y.present, dirty := y.dirty
                     dirtySince := if x.dirty = 0 then some now else x.dirtySince }

/-- A slot joins the age list behind every slot dirty earlier, ahead of every slot dirty later, ties by lower index
(01_page_slots 1.2). -/
def Obligations.AgeListInsertionKeepsOrder : Prop :=
  ∀ (s : State) (i : SlotIx) (l : List SlotIx),
    i ∉ l →
      let before : SlotIx → SlotIx → Prop := fun a b => (s.slot a).dirtySince.getD 0 < (s.slot b).dirtySince.getD 0 ∨
        (s.slot a).dirtySince.getD 0 = (s.slot b).dirtySince.getD 0 ∧ a < b
      (l.Pairwise before → (s.insertByAge i l).Pairwise before ∧ (s.insertByAge i l).Perm (i :: l)) ∧
        (l.Pairwise (· < ·) → (insertAscending i l).Pairwise (· < ·) ∧ (insertAscending i l).Perm (i :: l))

/-- Translation names the live spare or the page; a retirement takes the lowest free spare; every step keeps the table sound
(06_spare_pages_and_the_remap_table 6.2, 06_spare_pages_and_the_remap_table 6.3, 6.4, 07_map_pages 7.2). -/
def Obligations.TranslationAndSpareChoice : Prop :=
  ∀ (s : State) (page : Nat) (e : RemapEntry) (newlyDead : List SpareIx) (sp : SpareIx) (u : State),
    s.remap.ok →
      (e ∈ s.remap.live → s.translate e.page = pageCount s.capacity - 18 + e.spare.val) ∧
        ((∀ x ∈ s.remap.live, x.page ≠ page) → s.translate page = page) ∧
        (s.remap.freeSpare newlyDead = some sp ↔ s.remap.lowestFree newlyDead sp) ∧
        (s.remap.freeSpare newlyDead = none ↔ s.remap.noneFree newlyDead) ∧
        (s.remap.lowestFree newlyDead sp → (∀ x ∈ s.remap.live, x.page ≠ page → x.spare ∉ newlyDead) →
          (s.remap.proposed (some { page, spare := sp }) newlyDead).ok) ∧
        (s.commitSound → s.remapSound → step s = .next u → u.remapSound)

/-- The arrival checks: the first that applies refuses the access at once, and nothing but the port changes (02_host_accesses
2.3 (the table of arrival checks), 02_host_accesses 2.8). -/
def Obligations.ArrivalRefusalsInOrder : Prop :=
  ∀ (t : Time) (p : PortId) (wr : Bool) (addr : BitVec 17) (size : BitVec 2) (wd : BitVec 32) (s : State),
    (s.port p).ready →
      let acc := s.arrival t wr addr size wd
      let h := (s.port p).requested
      let refused : Reason → Detail → Host.Outcome State Fault Refusal := fun reason detail =>
        .next (State.finish ((s.taken t).setPort p (h.refusing (max s.now t) acc reason detail)))
      let answer := exec (.accessArrival t p wr addr size wd) s
      (s.resetN = false → answer = .next (State.finish ((s.taken t).setPort p (h.answering (max s.now t) .notReady 0 h.lastError)))) ∧
        (s.resetN = true → size = 3 → answer = refused .misaligned .badSize) ∧
        (s.resetN = true → size ≠ 3 → addr.toNat % sizeBytes size ≠ 0 → answer = refused .misaligned .unaligned) ∧
        (s.resetN = true → size ≠ 3 → addr.toNat % sizeBytes size = 0 →
          (windowBytes s.capacity ≤ addr.toNat → answer = refused .outside .none) ∧
          (addr.toNat < windowBytes s.capacity → wr = true →
            (s.pfw = true → answer = refused .writeRefused .powerFail) ∧
            (s.pfw = false → s.store.state = .degraded → answer = refused .writeRefused .degraded)))

/-- A read whose bytes are all present is answered at once from the slot's image, in every store and slot state (01_page_slots
1.3, 1.5, 02_host_accesses 2.4). ERRCODE 0 beside the data is the model's choice (log entry 33). -/
def Obligations.ReadHitAnswersFromImage : Prop :=
  ∀ (t : Time) (p : PortId) (addr : BitVec 17) (size : BitVec 2) (wd : BitVec 32) (s : State) (i : SlotIx),
    (s.port p).ready →
    s.passes false addr size →
    s.soleCarrier i (addr.toNat / 64) →
    (s.slot i).covers addr size →
    (s.slot i).fieldsOk →
      let acc := s.arrival t false addr size wd
      exec (.accessArrival t p false addr size wd) s = .next (State.finish
        (State.setPort
          { s.taken t with recency := if (s.slot i).state = .clean then s.recency.erase i ++ [i] else s.recency } p
          ((s.port p).requested.answering (max s.now t) .none (acc.readValue fun k => Page.byte (s.slot i).image k)
            (s.port p).lastError)))

/-- A write to a DIRTY, SEALED, COMMITTING or PINNED slot is merged; a DIRTY one restarts its settle deadline, or is sealed
when full (01_page_slots 1.4, 02_host_accesses 2.5, 03_sealing_and_the_commit_queue 3.2, 3.3, 3.6, 3.7). RD 0 and ERRCODE 0 on
the OK answer are the model's choices (log entries 12 and 33). -/
def Obligations.WriteJoinsUndurableSlot : Prop :=
  ∀ (t : Time) (p : PortId) (addr : BitVec 17) (size : BitVec 2) (wd : BitVec 32) (s : State) (i : SlotIx),
    (s.port p).ready →
    s.passes true addr size →
    s.soleCarrier i (addr.toNat / 64) →
      let acc := s.arrival t true addr size wd
      let x := (s.slot i).merge acc (max s.now t)
      let m := (s.taken t).setSlot i
        { x with settle := (s.slot i).settle.map fun _ => max s.now t + s.params.settle * Config.settleUnit }
      let ok := (s.port p).requested.answering (max s.now t) .none 0 (s.port p).lastError
      let answer := exec (.accessArrival t p true addr size wd) s
      ((s.slot i).state = .sealed ∨ (s.slot i).state = .committing ∨ (s.slot i).state = .pinned →
          answer = .next (State.finish (((s.taken t).setSlot i x).setPort p ok))) ∧
        ((s.slot i).state = .dirty → ¬s.works ∨ x.dirty ≠ fullSet → answer = .next (State.finish (m.setPort p ok))) ∧
        ((s.slot i).state = .dirty → s.holds s.ageList .dirty → s.works → x.dirty = fullSet →
          answer = .next (State.finish ((m.sealedTo (m.sealsFor i)).setPort p ok)))

/-- A write to a CLEAN slot makes it DIRTY with its deadlines, and the oldest slots above HIGHWATER are sealed (01_page_slots
1.4, 02_host_accesses 2.5, 03_sealing_and_the_commit_queue 3.2, 3.3). RD 0 and ERRCODE 0 on the OK answer are the model's
choices (log entries 12 and 33). -/
def Obligations.WriteMakesCleanSlotDirty : Prop :=
  ∀ (t : Time) (p : PortId) (addr : BitVec 17) (size : BitVec 2) (wd : BitVec 32) (s : State) (i : SlotIx),
    (s.port p).ready →
    s.passes true addr size →
    s.soleCarrier i (addr.toNat / 64) →
    (s.slot i).state = .clean →
    (s.slot i).fieldsOk →
    (s.slot i).setsOk →
    s.holds s.ageList .dirty →
      let acc := s.arrival t true addr size wd
      let b := s.taken t
      let x := (s.slot i).merge acc (max s.now t)
      let m := { b with recency := s.recency.erase i
                        slots := s.slots.set i.val { x with state := .dirty, settle := b.newSettle, age := b.newAge (max s.now t) } }
      let n := m.enterAgeList i
      exec (.accessArrival t p true addr size wd) s = .next (State.finish ((n.sealedTo n.overflow).setPort p
        ((s.port p).requested.answering (max s.now t) .none 0 (s.port p).lastError)))

/-- A write to a page in no slot takes the lowest FREE slot, else the least recently used idle CLEAN one, and is merged
(01_page_slots 1.3, 1.4, 02_host_accesses 2.5, 03_sealing_and_the_commit_queue 3.2, 3.3). The image values kept on allocation
(log entry 11) and RD 0 and ERRCODE 0 on the OK answer (log entries 12 and 33) are the model's choices. -/
def Obligations.WriteTakesNewSlot : Prop :=
  ∀ (t : Time) (p : PortId) (addr : BitVec 17) (size : BitVec 2) (wd : BitVec 32) (s : State) (i : SlotIx),
    (s.port p).ready →
    s.passes true addr size →
    s.uncarried (addr.toNat / 64) →
    s.takes i →
    s.collectionsOk →
      let acc := s.arrival t true addr size wd
      let b := s.taken t
      let m := { b with freeList := s.freeList.erase i, recency := s.recency.erase i
                        slots := s.slots.set i.val
                          { state := .dirty, page := some (addr.toNat / 64), image := Page.put (s.slot i).image acc.offset acc.bytes
                            present := acc.offsets, dirty := acc.offsets, dirtySince := some (max s.now t), settle := b.newSettle
                            age := b.newAge (max s.now t), fillPending := none, waitA := none, waitB := none } }
      let n := m.enterAgeList i
      exec (.accessArrival t p true addr size wd) s = .next (State.finish ((n.sealedTo n.overflow).setPort p
        ((s.port p).requested.answering (max s.now t) .none 0 (s.port p).lastError)))

/-- A write with no slot waits or is answered STORE_FULL; a read miss without the array is answered ARRAY_UNAVAILABLE
(02_host_accesses 2.4, 2.5, 2.6). -/
def Obligations.AccessWithNoSlotOrNoArray : Prop :=
  ∀ (t : Time) (p : PortId) (wr : Bool) (addr : BitVec 17) (size : BitVec 2) (wd : BitVec 32) (s : State) (i : SlotIx),
    (s.port p).ready →
    (s.port p).fieldsOk →
    s.passes wr addr size →
      let acc := s.arrival t wr addr size wd
      let quiesced := decide (s.store.state = .quiesced)
      let refused : Reason → Detail → HostPort := fun reason detail => (s.port p).requested.refusing (max s.now t) acc reason detail
      let ends : HostPort → Host.Outcome State Fault Refusal := fun h => .next (State.finish ((s.taken t).setPort p h))
      (wr = true → s.uncarried (addr.toNat / 64) → s.noneAllocatable → exec (.accessArrival t p wr addr size wd) s = ends
          (if quiesced then refused .storeFull .quiesced
           else (s.port p).awaiting .waitSlot acc (max s.now t + s.params.stall * Config.stallUnit) none)) ∧
        (wr = false → ¬s.readable →
          s.uncarried (addr.toNat / 64) ∨ s.soleCarrier i (addr.toNat / 64) ∧ ¬(s.slot i).covers addr size →
          exec (.accessArrival t p wr addr size wd) s = ends
            (refused .arrayUnavailable (if quiesced then .quiesced else .arrayTimeout)))

/-- A read with a missing byte waits: on its slot's fill, on a newly allocated slot, or for a bypass read when none is
allocatable (01_page_slots 1.3, 1.5, 02_host_accesses 2.4, 2.6, 05_the_array_port 5.5). That the allocated slot keeps its old
image values, meaningless until present, is the model's choice (log entry 11). -/
def Obligations.ReadMissWaitsForTheArray : Prop :=
  ∀ (t : Time) (p : PortId) (addr : BitVec 17) (size : BitVec 2) (wd : BitVec 32) (s : State) (i : SlotIx),
    (s.port p).ready →
    (s.port p).fieldsOk →
    s.passes false addr size →
    s.readable →
      let acc := s.arrival t false addr size wd
      let b := s.taken t
      let stall := max s.now t + s.params.stall * Config.stallUnit
      (s.soleCarrier i (addr.toNat / 64) → ¬(s.slot i).covers addr size →
          exec (.accessArrival t p false addr size wd) s = .next (State.finish (State.setPort
            { b with requests := if (s.slot i).fillPending = none then s.requests ++ [.fill i] else s.requests
                     slots := s.slots.set i.val (Slot.setWait
                       { s.slot i with fillPending := some ((s.slot i).fillPending.getD (~~~(s.slot i).present)) } p (some acc.offsets)) } p
            ((s.port p).awaiting .waitFill acc stall (some i))))) ∧
        (s.uncarried (addr.toNat / 64) → s.takes i → s.collectionsOk →
          exec (.accessArrival t p false addr size wd) s = .next (State.finish (State.setPort
            { b with freeList := s.freeList.erase i, recency := s.recency.erase i ++ [i], requests := s.requests ++ [.fill i]
                     slots := s.slots.set i.val (Slot.setWait
                       { state := .clean, page := some (addr.toNat / 64), image := (s.slot i).image, present := 0, dirty := 0
                         dirtySince := none, settle := none, age := none, fillPending := some fullSet, waitA := none
                         waitB := none } p (some acc.offsets)) } p
            ((s.port p).awaiting .waitFill acc stall (some i))))) ∧
        (s.uncarried (addr.toNat / 64) → s.noneAllocatable →
          exec (.accessArrival t p false addr size wd) s = .next (State.finish (State.setPort
            { b with requests := s.requests ++ [.bypass p] } p ((s.port p).awaiting .waitBypass acc stall none))))

/-- REQ and RDY: an answer stands until REQ is removed or its pulse ends, and one assertion of REQ gives one access
(02_host_accesses 2.1). That a REQ seen during the RDY pulse of an abandoned access is noted and not spent is the model's
reading (log entry 17). -/
def Obligations.HandshakeOfAnswers : Prop :=
  ∀ (t : Time) (p : PortId) (wr : Bool) (addr : BitVec 17) (size : BitVec 2) (wd : BitVec 32) (s : State),
      let h := s.port p
      let b := { s with now := max s.now t }
      let removed : HostPort → HostPort := fun h => { h with rdy := false, err := false, errcode := 0, rd := 0, pulseEnd := none }
      (h.state ≠ .idle → exec (.accessArrival t p wr addr size wd) s = .next (b.setPort p h.requested)) ∧
        (h.state = .idle → h.rdy = true → exec (.accessArrival t p wr addr size wd) s =
          .next (if h.pulseEnd = none then b else b.setPort p { h with req := true })) ∧
        (h.state = .idle → h.rdy = false → h.reqSpent = true → exec (.accessArrival t p wr addr size wd) s = .next b) ∧
        (exec (.reqRemoved t p) s = .next (b.setPort p
          (if h.rdy = true ∧ h.pulseEnd = none then { removed h with req := false, reqSpent := false }
           else { h with req := false, reqSpent := false }))) ∧
        (∀ e ∈ h.pulseEnd, exec (.rdyPulseEnd t p) s = .next (if e ≤ max s.now t then b.setPort p (removed h) else b)) ∧
        (h.pulseEnd = none → exec (.rdyPulseEnd t p) s = .next b)

/-- Stall expiry answers STALL_EXPIRED and leaves the slot, withdrawing an ungranted fill or bypass read nobody else waits for
(02_host_accesses 2.6, 01_page_slots 1.7, 05_the_array_port 5.7). That the released slot keeps its image values (log entry
11), that it goes to a waiting write before the grant rule (log entry 32) and that a deadline not yet come leaves all but the
clock (log entry 2) are the model's choices. -/
def Obligations.StallExpiryAnswersByWaitState : Prop :=
  ∀ (t : Time) (p : PortId) (s : State) (i : SlotIx) (acc : Access) (d : Time),
      let h := s.port p
      let b := { s with now := max s.now t }
      let x := (s.slot i).setWait p none
      let after : State → Detail → Host.Outcome State Fault Refusal := fun m detail =>
        .next (((m.setPort p (h.refusing (max s.now t) acc .stallExpired detail)).serveWaiting).finish)
      (h.stall = none → exec (.stallExpiry t p) s = .next b) ∧
        (h.stall = some d → max s.now t < d → exec (.stallExpiry t p) s = .next b) ∧
        (h.stall = some d → d ≤ max s.now t → h.access = some acc →
          (h.state = .waitFill → h.waited = some i →
            (x.waitA ≠ none ∨ x.waitB ≠ none ∨ .fill i ∉ s.requests →
              exec (.stallExpiry t p) s = after (b.setSlot i x) .fill) ∧
            (x.waitA = none → x.waitB = none → .fill i ∈ s.requests → x.present ≠ 0 →
              exec (.stallExpiry t p) s = after { b with requests := s.requests.erase (.fill i)
                                                         slots := s.slots.set i.val { x with fillPending := none } } .fill) ∧
            (x.waitA = none → x.waitB = none → .fill i ∈ s.requests → x.present = 0 → x.dirty = 0 → x.state = .clean →
              exec (.stallExpiry t p) s = after { b with requests := s.requests.erase (.fill i), recency := s.recency.erase i
                                                         freeList := insertAscending i s.freeList
                                                         slots := s.slots.set i.val x.emptied } .fill)) ∧
          (h.state = .waitBypass → .bypass p ∈ s.requests →
            exec (.stallExpiry t p) s = after { b with requests := s.requests.erase (.bypass p) } .bypass) ∧
          (h.state = .waitBypass → .bypass p ∉ s.requests → s.owner = .bypass p →
            exec (.stallExpiry t p) s = after { b with reading := s.reading.map fun g => { g with dropped := true } } .bypass) ∧
          (h.state = .waitSlot → exec (.stallExpiry t p) s = after b .slot))

/-- A fill's bytes land only where the slot has none, its waiting reads are answered from the image, and the array is released
(01_page_slots 1.6, 05_the_array_port 5.7). ERRCODE 0 beside the data is the model's choice (log entry 33), as is the place of
the service of waiting writes before the grant rule (log entry 32). -/
def Obligations.FillCompletionLandsMissingBytes : Prop :=
  ∀ (t : Time) (worn : List Host.Cell) (s : State) (i : SlotIx) (g : Reading),
    s.reading = some g →
    g.kind = .fill i →
      let b := s.seeing t worn
      (g.dropped = true → exec (.fillCompletion t worn) s = .next ((b.serveWaiting.endReading).finish)) ∧
        (g.dropped = false → s.waitersReady i ((s.slot i).present ||| g.offsets) →
          exec (.fillCompletion t worn) s = .next ((((b.fillDone i ((s.slot i).filled (s.reads worn g.page) g.offsets)
            ((s.slot i).present ||| g.offsets)).serveWaiting).endReading).finish))

/-- A host read returns the newest bytes: a bypass completion, a hit and a fill completion from the slot, else from the array
(R43) (02_host_accesses 2.4, 05_the_array_port 5.7, 5.10, 08_store_states_and_sideband_lines 8.2, 02_host_accesses 2.7,
01_page_slots 1.5, 1.6). ERRCODE 0 beside the data (log entry 33) and the telling of array bytes by the event that reads them
(log entry 4) are the model's choices. -/
def Obligations.BypassCompletionDeliversNewestBytes : Prop :=
  ∀ (t : Time) (worn : List Host.Cell) (s : State) (p : PortId) (g : Reading) (acc : Access) (i : SlotIx) (addr : BitVec
    17) (size : BitVec 2) (wd : BitVec 32) (c : Instr) (u : State) (k : Nat) (page : Nat),
      (s.reading = some g → g.kind = .bypass p →
        let b := s.seeing t worn
        let array := s.reads worn g.page
        let freed : State → State := fun m =>
          if s.store.state = .quiesced then { m with owner := .none, reading := none, driven := false }
          else if s.resetN = true ∧ s.store.state = .starting ∧ s.store.phase = some .quietWait ∧ s.store.quiet ≤ max s.now t then
            { m with owner := .none, reading := none
                     store := { s.store with phase := some .hold, holdDeadline := some (max s.now t + Config.hold) } }
          else { m with owner := .none, reading := none }
        let answered : (Nat → Byte) → Host.Outcome State Fault Refusal := fun f => .next ((freed (b.setPort p
          ((s.port p).answering (max s.now t) .none (acc.readValue f) (s.port p).lastError))).finish)
        (g.dropped = true → exec (.bypassCompletion t worn) s = .next ((freed b).finish)) ∧
          (g.dropped = false → (s.port p).access = some acc →
            (s.uncarried acc.page → exec (.bypassCompletion t worn) s = answered array) ∧
            (s.soleCarrier i acc.page → exec (.bypassCompletion t worn) s = answered fun k =>
              if (s.slot i).present.getLsbD k then Page.byte (s.slot i).image k else array k)) ∧
          b.endReading = freed b) ∧
      (s.reading = some g → g.kind = .bypass p → g.dropped = false → (s.port p).access = some acc → g.page = s.translate acc.page →
        deliversTo (exec (.bypassCompletion t worn) s) p (acc.readValue (s.newest worn acc.page))) ∧
      (s.reading = some g → g.kind = .fill i → g.dropped = false → s.waitersReady i ((s.slot i).present ||| g.offsets) →
        (s.slot i).wait p = some acc.offsets → (s.port p).access = some acc → s.soleCarrier i acc.page → g.page = s.translate acc.page →
        deliversTo (exec (.fillCompletion t worn) s) p (acc.readValue (s.newest worn acc.page))) ∧
      ((s.port p).ready → s.passes false addr size → s.soleCarrier i (addr.toNat / 64) → (s.slot i).covers addr size →
        let acc := s.arrival t false addr size wd
        deliversTo (exec (.accessArrival t p false addr size wd) s) p (acc.readValue (s.newest [] acc.page))) ∧
      ((s.port p).ready → s.passes true addr size → s.collectionsOk → s.pagesOk → s.noWriteWaits →
        exec (.accessArrival t p true addr size wd) s = .next u → (u.port p).rdy = true → (u.port p).err = false →
        k < sizeBytes size →
        ∃ j : SlotIx, u.soleCarrier j (addr.toNat / 64) ∧ (u.slot j).state ≠ .clean ∧
          (u.slot j).present.getLsbD (addr.toNat % 64 + k) = true ∧
          Page.byte (u.slot j).image (addr.toNat % 64 + k) = wd.extractLsb' (8 * k) 8) ∧
      (s.collectionsOk → s.carries i page → (s.slot i).state ≠ .clean → (s.slot i).present.getLsbD k = true →
        s.keepsBytes page c = true → s.noWriteWaitsFor page → exec c s = .next u →
        (s.noWriteWaits → u.carries i page) ∧
        (u.carries i page →
          (u.slot i).present.getLsbD k = true ∧ Page.byte (u.slot i).image k = Page.byte (s.slot i).image k))

/-- A settle or age deadline that has come seals its DIRTY slot, in ORDER AGED after every older DIRTY slot
(03_sealing_and_the_commit_queue 3.1, 3.2, 3.6). -/
def Obligations.DeadlineExpirySealsTheSlot : Prop :=
  ∀ (t : Time) (i : SlotIx) (s : State),
    (s.slot i).state = .dirty →
    s.holds s.ageList .dirty →
      let b := { s with now := max s.now t }
      let sealing : Option Time → Host.Outcome State Fault Refusal := fun deadline => .next
        (if deadline ≠ none ∧ deadline.getD 0 ≤ max s.now t then (b.sealedTo (s.sealsFor i)).finish else b)
      exec (.settleExpiry t i) s = sealing (s.slot i).settle ∧ exec (.ageExpiry t i) s = sealing (s.slot i).age

/-- FLUSH edge, FLUSH command, general-call flush and PFW assertion seal every DIRTY slot in age order, in every store state
(03_sealing_and_the_commit_queue 3.4, 02_host_accesses 2.5, 08_store_states_and_sideband_lines 8.9, 10_management_port 10.6,
10.7). -/
def Obligations.FlushesAndPowerFailSealEveryDirtySlot : Prop :=
  ∀ (t : Time) (s : State),
    s.resetN = true →
    s.holds s.ageList .dirty →
    s.portA.fieldsOk →
    s.portB.fieldsOk →
      let b := { s with now := max s.now t }
      let refused : HostPort → HostPort := fun h => match h.state, h.access with
        | .waitSlot, some acc => h.refusing (max s.now t) acc .writeRefused .powerFail
        | _, _ => h
      (s.flushSeen = false → exec (.flushRisingEdge t) s = .next ((State.sealedTo { b with flushSeen := true } s.ageList).finish)) ∧
        (s.flushSeen = true → exec (.flushRisingEdge t) s = .next b) ∧
        exec (.flushFallingEdge t) s = .next { b with flushSeen := false } ∧
        exec (.flush t []) s = .next (((b.sealedTo s.ageList).responding [0x00, 0x04, BitVec.ofNat 8 s.ageList.length]).finish) ∧
        exec (.generalCallFlush t) s = .next ((b.sealedTo s.ageList).finish) ∧
        (s.pfw = false → exec (.pfwAssertionEdge t) s = .next
          (State.finish { State.sealedTo { b with pfw := true } s.ageList with portA := refused s.portA, portB := refused s.portB })) ∧
        (s.pfw = true → exec (.pfwAssertionEdge t) s = .next b) ∧
        exec (.pfwDeassertionEdge t) s = .next { b with pfw := false } ∧ (b.sealedTo s.ageList).ageList = []

/-- A page load sends the attempt's next byte to the page latch; the last one of the window sets the poll byte and the lapse
(04_the_commit_engine 4.3, 05_the_array_port 5.2, 5.4, 07_map_pages 7.4). -/
def Obligations.PageLoadLatchesNextByte : Prop :=
  ∀ (t : Time) (s : State) (c : CommitRecord) (a : Attempt) (k : Nat) (rest : List Nat),
    (s.writer.map MapWriter.attempt = some a ∧ (s.commit ≠ none ∨ s.owner = .mapWriter) ∨ s.writer = none ∧ s.commit = some c ∧ c.attempt = a ∧ (c.phase = .home ∨ c.phase = .spareLoad)) →
    a.step = .load →
    a.toLoad = k :: rest →
      let b := { s with now := max s.now t }
      let put : State → Attempt → State := fun m a' => match s.writer with
        | some w => { m with writer := some { w with attempt := a' } }
        | none => { m with commit := some { c with attempt := a' } }
      let v := Page.byte a.bytes k
      let a' := { a with toLoad := rest, failing := none
                         pollByte := if rest = [] then some (k, v) else a.pollByte, step := if rest = [] then .lapse else .load }
      let loaded : Chip → State := fun chip => put { b with chip, lastLoad := some (max s.now t), condition := .loading } a'
      (s.chip.programming = false → s.chip.latch = [] ∨ max s.now t < s.chip.loadedAt + Config.latchLapseMin →
          exec (.pageLoad t) s = .next (loaded { s.chip with latch := s.chip.latch.filter (fun e => e.1 ≠ k) ++ [(k, v)]
                                                             latchPage := a.target, lastByte := v, loadedAt := max s.now t })) ∧
        (s.chip.programming = true → exec (.pageLoad t) s = .next (loaded s.chip)) ∧ exec (.pageLoad t) s = .next b.issueLoad

/-- The first poll comes 160 us after the last load with a 16 ms deadline; a poll reading other than the inverted byte begins
the verify (04_the_commit_engine 4.3, 4.4, 05_the_array_port 5.2, 5.4). That the event tells whether programming has ended,
and that it has 10.15 ms after the last load (log entries 5 and 27), and that SETTLING is passed within LAPSE_END (log entry
18), are the model's choices. -/
def Obligations.LapseAndPollOfAnAttempt : Prop :=
  ∀ (t : Time) (s : State) (c : CommitRecord) (a : Attempt) (l : Time) (ended : Bool) (worn : List Host.Cell) (k : Nat)
    (v : Byte),
    (s.writer.map MapWriter.attempt = some a ∧ (s.commit ≠ none ∨ s.owner = .mapWriter) ∨ s.writer = none ∧ s.commit = some c ∧ c.attempt = a ∧ (c.phase = .home ∨ c.phase = .spareLoad)) →
      let b := { s with now := max s.now t }
      let put : State → Attempt → State := fun m a' => match s.writer with
        | some w => { m with writer := some { w with attempt := a' } }
        | none => { m with commit := some { c with attempt := a' } }
      let finished := ended = true ∨ s.chip.latch ≠ [] ∧ s.chip.loadedAt + Config.latchLapseMax + Config.programMax ≤ max s.now t
      let n := State.observe { b with chip := if finished then
        { s.chip with cells := Memory.writeLatch s.chip.cells s.chip.latchPage s.chip.latch, latch := [], programming := false }
        else s.chip } worn
      (a.step = .lapse → s.lastLoad = some l → exec (.lapseEnd t) s = .next (if l + Config.lapse ≤ max s.now t
          then put { b with condition := .programming
                            chip := { s.chip with programming := if s.chip.latch = [] then s.chip.programming else true } }
            { a with step := .poll, pollDeadline := some (max s.now t + Config.pollTimeout) }
          else b)) ∧
        (a.step = .poll → a.pollByte = some (k, v) →
          exec (.pollRead t ended worn) s = .next (if n.chip.read a.target k = v ^^^ 0x80 then n
            else put { n with condition := .idle } { a with step := .verify, pollByte := none, pollDeadline := none }))

/-- Programming stores the latched bytes in the latch page and no other byte; while it runs every read returns the inverted
byte (05_the_array_port 5.2). -/
def Obligations.ArrayStoresLatchedBytes : Prop :=
  ∀ (c : Chip) (k : Nat) (v : Byte) (page : Nat) (off : Nat),
    Memory.wf c.cells = true →
    (c.latch.map Prod.fst).Nodup →
    (∀ e ∈ c.latch, e.1 < 64) →
    off < 64 →
      ((k, v) ∈ c.latch → c.finish.read c.latchPage k = v) ∧
        (page ≠ c.latchPage ∨ off ∉ c.latch.map Prod.fst → c.finish.read page off = Memory.read c.cells (page * 64 + off)) ∧
        (c.finish.latch = [] ∧ c.finish.programming = false) ∧
        (c.programming = true → c.read page off = c.lastByte ^^^ 0x80) ∧
        (c.programming = false → c.read page off = Memory.read c.cells (page * 64 + off))

/-- A poll deadline that comes in a commit pins the slot with its unproven bytes and makes the store DEGRADED
(04_the_commit_engine 4.4, 4.7, 06_spare_pages_and_the_remap_table 6.4, 08_store_states_and_sideband_lines 8.7). That the
waiting writes are answered before the requests are withdrawn is the model's choice (log entry 28). -/
def Obligations.PollTimeoutPinsTheSlot : Prop :=
  ∀ (t : Time) (s : State) (c : CommitRecord) (w : MapWriter) (d : Time),
    s.commit = some c →
    (s.slot c.slot).state = .committing →
      let b := { s with now := max s.now t }
      let ended : Remap → OffsetSet → Nat → Byte → Host.Outcome State Fault Refusal := fun remap add target detail =>
        let m := (State.append { b with remap } .arrayTimeout (some c.page) (some target) none detail).pinnedWith c.slot add
        let n := (m.recordsPinned c pinnedByTimeout).enterDegraded .arrayTimeout
        .next (State.finish { n.dropsCommit with condition := .unsettled })
      (s.writer = none → c.attempt.step = .poll → c.attempt.pollDeadline = some d →
          (c.phase = .home ∨ c.phase = .spareLoad) → max s.now t < d → exec (.pollDeadlineExpiry t) s = .next b) ∧
        (s.writer = none → c.attempt.step = .poll → c.attempt.pollDeadline = some d → d ≤ max s.now t →
          (c.phase = .home → exec (.pollDeadlineExpiry t) s = ended s.remap c.attempt.loadSet c.attempt.target 0x01) ∧
          (c.phase = .spareLoad → exec (.pollDeadlineExpiry t) s =
            ended (s.remap.proposed none c.newlyDead) fullSet c.attempt.target 0x02)) ∧
        (s.writer = some w → w.attempt.step = .poll → w.attempt.pollDeadline = some d → d ≤ max s.now t →
          exec (.pollDeadlineExpiry t) s = ended (s.remap.proposed c.tentative c.newlyDead) fullSet w.attempt.target 0x03) ∧
        (s.writer = some w → w.attempt.step = .poll → w.attempt.pollDeadline = some d → max s.now t < d → exec (.pollDeadlineExpiry t) s = .next b)

/-- A verify on the home page: success frees the slot, a failing set is tried again up to RETRIES, and then a retirement
begins (04_the_commit_engine 4.5, 4.6, 4.7, 06_spare_pages_and_the_remap_table 6.3, 6.4). That a waiting write is served
before the grant rule (log entry 32), that the seal under PFW stands before the high-water check (log entry 36), ERRCODE 0
beside the data (log entry 33) and that a re-attempt's first load waits for the next PAGE_LOAD (log entry 14) are the model's
choices. -/
def Obligations.VerifyOnHomePageDecides : Prop :=
  ∀ (t : Time) (worn : List Host.Cell) (s : State) (c : CommitRecord) (failing : OffsetSet) (sp : SpareIx),
    s.writer = none →
    s.commit = some c →
    c.phase = .home →
    c.attempt.step = .verify →
    s.failsAt worn c.attempt failing →
    (s.slot c.slot).fieldsOk →
    (s.slot c.slot).state = .committing →
    (failing = 0 → s.holds s.ageList .dirty) →
      let b := s.seeing t worn
      let kept := { c with phase := .retireBackfill, attempt := { c.attempt with failing := some failing }
                           backfill := ~~~(s.slot c.slot).present, homeFailing := failing }
      let answer := exec (.verifyComplete t worn) s
      (failing = 0 → answer = .next (((((b.leavesCommit c.slot).recordsRecovery c).dropsCommit.serveWaiting).drainCheck).finish)) ∧
        (failing ≠ 0 → c.attempt.number ≤ s.params.retries → answer =
          .next (State.finish { b with commit := some { c with attempt := c.attempt.retrying failing (ascending failing) } })) ∧
        (failing ≠ 0 → s.params.retries < c.attempt.number →
          (s.remap.noneFree [] → answer =
            .next (((((b.pinnedWith c.slot failing).recordsPinned c pinnedNoSpare).dropsCommit.serveWaiting).drainCheck).finish)) ∧
          (¬s.remap.noneFree [] → (s.slot c.slot).present ≠ fullSet → answer = .next (State.finish { b with commit := some kept })) ∧
          (s.remap.lowestFree c.newlyDead sp → c.newlyDead = [] → (s.slot c.slot).present = fullSet → s.waitersReady c.slot fullSet →
            let served := (b.fillDone c.slot (s.slot c.slot).image fullSet).modSlot c.slot fun y =>
              { y with fillPending := (s.slot c.slot).fillPending }
            answer = .next ((served.loadsSpare kept sp).finish)))

/-- The retirement backfill lands the missing bytes, answers the slot's waiting reads and loads all 64 bytes into the lowest
free spare (06_spare_pages_and_the_remap_table 6.3). ERRCODE 0 beside the data is the model's choice (log entry 33). -/
def Obligations.BackfillFillsTheSlotForItsSpare : Prop :=
  ∀ (t : Time) (worn : List Host.Cell) (s : State) (c : CommitRecord) (sp : SpareIx),
    s.commit = some c →
    c.phase = .retireBackfill →
    (s.slot c.slot).state = .committing →
    s.remap.lowestFree c.newlyDead sp →
    s.waitersReady c.slot ((s.slot c.slot).present ||| c.backfill) →
      let b := s.seeing t worn
      let x := s.slot c.slot
      let m := b.fillDone c.slot (x.filled (s.reads worn c.attempt.target) c.backfill) (x.present ||| c.backfill)
      let n := m.modSlot c.slot fun y => { y with fillPending := x.fillPending }
      exec (.retireBackfillComplete t worn) s = .next ((n.loadsSpare c sp).finish)

/-- A verify on a spare: success writes the map with the new entry; a spare out of attempts dies and the next free one is
tried (06_spare_pages_and_the_remap_table 6.3, 6.4, 6.6). That a map write's first load is issued in the event that starts the
writer, and a re-attempt's first load by the next PAGE_LOAD, is the model's choice (log entry 14). -/
def Obligations.VerifyOnSpareDecides : Prop :=
  ∀ (t : Time) (worn : List Host.Cell) (s : State) (c : CommitRecord) (failing : OffsetSet) (sp : SpareIx) (next :
    SpareIx) (e : RemapEntry),
    s.writer = none →
    s.commit = some c →
    c.phase = .spareLoad →
    c.spare = some sp →
    c.attempt.step = .verify →
    s.failsAt worn c.attempt failing →
    s.remap.ok →
      let b := s.seeing t worn
      let count := card c.homeFailing
      let answer := exec (.verifyComplete t worn) s
      let retired : Nat → State := fun home => b.append .retired (some c.page) (some home) (some count) (BitVec.ofNat 8 sp.val)
      let entered : List SpareIx → CommitRecord := fun l => { c with tentative := some { page := c.page, spare := sp }, newlyDead := l }
      let dead := { c with newlyDead := c.newlyDead ++ [sp] }
      let died := b.append .spareDead (some c.page) (some (sparePage s.capacity sp)) (some (card failing)) (BitVec.ofNat 8 sp.val)
      (failing = 0 → (∀ x ∈ s.remap.live, x.page ≠ c.page) →
          answer = .next (((retired c.page).writesMap (entered c.newlyDead) .retire).finish)) ∧
        (failing = 0 → e ∈ s.remap.live → e.page = c.page → answer = .next
          ((((retired (sparePage s.capacity e.spare)).append .spareDead (some c.page) (some (sparePage s.capacity e.spare)) (some count)
            (BitVec.ofNat 8 e.spare.val)).writesMap (entered (c.newlyDead ++ [e.spare])) .retire).finish)) ∧
        (failing ≠ 0 → c.attempt.number ≤ s.params.retries → answer =
          .next (State.finish { b with commit := some { c with attempt := c.attempt.retrying failing (ascending failing) } })) ∧
        (failing ≠ 0 → s.params.retries < c.attempt.number →
          (s.remap.lowestFree dead.newlyDead next → answer = .next ((died.loadsSpare dead next).finish)) ∧
          (s.remap.noneFree dead.newlyDead → answer = .next ((died.writesMap dead .deadOnly).finish)))

/-- A verify on a map copy: the table is adopted and made current, or tried again, or adopted in memory with the store
DEGRADED (06_spare_pages_and_the_remap_table 6.3, 6.4, 07_map_pages 7.4). That a waiting write is served before the grant rule
(log entry 32), that the seal under PFW stands before the high-water check (log entry 36), and that a re-attempt's first load
waits for the next PAGE_LOAD (log entry 14) are the model's choices. -/
def Obligations.VerifyOnMapCopyEndsTheWrite : Prop :=
  ∀ (t : Time) (worn : List Host.Cell) (s : State) (c : CommitRecord) (failing : OffsetSet) (w : MapWriter),
    s.writer = some w →
    s.commit = some c →
    w.attempt.step = .verify →
    s.failsAt worn w.attempt failing →
    (s.slot c.slot).fieldsOk →
    (s.slot c.slot).state = .committing →
    (w.purpose = .retire ∨ w.purpose = .deadOnly) →
    s.holds s.ageList .dirty →
      let b := s.seeing t worn
      let table := s.remap.proposed c.tentative c.newlyDead
      let ended : State → Host.Outcome State Fault Refusal := fun m => .next (State.finish (State.drainCheck (State.serveWaiting
        (State.dropsCommit (if w.purpose = .retire then (m.leavesCommit c.slot).recordsRecovery c
          else (m.pinnedWith c.slot fullSet).recordsPinned c pinnedNoSpare)))))
      let answer := exec (.verifyComplete t worn) s
      (failing = 0 → answer = ended { b with remap := { table with copy := some w.copy, sequence := w.sequence } }) ∧
        (failing ≠ 0 → w.attempt.number ≤ s.params.retries → answer =
          .next (State.finish { b with writer := some { w with attempt := w.attempt.retrying failing (mapLoads failing) } })) ∧
        (failing ≠ 0 → s.params.retries < w.attempt.number → answer = ended
          ((State.append { b with remap := table } .mapWriteFail (some c.page) (some w.attempt.target) (some (card failing))
            (if w.purpose = .retire then 0x01 else 0x02)).enterDegraded .mapWriteFail))

/-- MAP_FORMAT writes an empty record to copy 0, blanks copy 1 and enters RUNNING; a failure or a timeout ends it
(07_map_pages 7.6, 10_management_port 10.6). That the first load on copy 1 is issued in the event that verifies copy 0, and a
re-attempt's first load by the next PAGE_LOAD, is the model's choice (log entry 14). -/
def Obligations.FormatRunsAndEnds : Prop :=
  ∀ (t : Time) (worn : List Host.Cell) (s : State) (w : MapWriter) (failing : OffsetSet) (d : Time),
    s.commit = none →
    (w.purpose = .format0 ∨ w.purpose = .format1) →
    (s.mgmt.long = .mapFormat ∨ s.mgmt.long = .none) →
      let b := s.seeing t worn
      let c := { s with now := max s.now t }
      let writer : MapPurpose → Fin 2 → Option (BitVec 16) → List Byte → MapWriter := fun purpose copy sequence bytes =>
        { purpose, copy, sequence
          attempt := Attempt.fresh (pageCount s.capacity - 2 + copy.val) fullSet (Page.ofList bytes) (mapLoads fullSet) }
      let quiet : State → State := fun m => { m with mgmt := { m.mgmt with long := .none } }
      let answer := exec (.verifyComplete t worn) s
      let verified := s.writer = some w ∧ s.owner = .mapWriter ∧ w.attempt.step = .verify ∧ s.failsAt worn w.attempt failing
      (s.resetN = true → s.mgmt.long = .none → s.store.state = .degraded → s.store.cause = some .mapInvalid →
          exec (.mapFormat t []) s = .next (State.finish (State.responding
            { c with mgmt := { s.mgmt with long := .mapFormat }, engineReq := some .mapWriter, fairness := 0
                     writer := some (writer .format0 0 (some 1) (recordBytes [] 0 1)) } [0x01, 0x0E]))) ∧
        (verified → failing = 0 → w.purpose = .format0 → answer = .next (State.finish (State.issueLoad
          { b with writer := some (writer .format1 1 none (List.replicate 64 0xFF)) }))) ∧
        (verified → failing = 0 → w.purpose = .format1 → answer = .next (State.finish (quiet (State.enterRunning
          { State.append { b with remap := { live := [], dead := 0, copy := some 0, sequence := some 1 } } .formatted none
              (some (pageCount s.capacity - 2)) none 0x00 with writer := none, owner := .none })))) ∧
        (verified → failing ≠ 0 → w.attempt.number ≤ s.params.retries → answer =
          .next (State.finish { b with writer := some { w with attempt := w.attempt.retrying failing (mapLoads failing) } })) ∧
        (verified → failing ≠ 0 → s.params.retries < w.attempt.number → answer = .next (State.finish (quiet
          { b.append .mapWriteFail none (some w.attempt.target) (some (card failing)) 0x03 with writer := none, owner := .none }))) ∧
        (s.writer = some w → s.owner = .mapWriter → w.attempt.step = .poll → w.attempt.pollDeadline = some d → d ≤ max s.now t →
          exec (.pollDeadlineExpiry t) s = .next (State.finish (quiet
            { (c.append .arrayTimeout none (some w.attempt.target) none 0x03).enterDegraded .arrayTimeout with
                writer := none, owner := .none, condition := .unsettled })))

/-- The hold begins at the quiet moment with no read in progress and lasts 10 ms; then the map loader has the array and reads
copy 0, then copy 1 (08_store_states_and_sideband_lines 8.2, 05_the_array_port 5.9, 07_map_pages 7.3). That HOLD_BEGIN ends
the read of an abandoned map load (log entry 24), that the loader's reads are made by steps with no command waiting or at the
load's end (log entries 7 and 16) and that the array is found ended at the grant (log entry 5) are the model's readings. -/
def Obligations.StartUpHoldAndMapLoadGrant : Prop :=
  ∀ (t : Time) (s : State) (d : Time) (l : MapLoader),
      let b := { s with now := max s.now t }
      let held := { b with store := { s.store with phase := some .hold, holdDeadline := some (max s.now t + Config.hold) } }
      (s.resetN = true → s.store.state = .starting → s.store.phase = some .quietWait → s.store.quiet ≤ max s.now t →
          (s.reading = none → exec (.holdBegin t) s = .next held) ∧
          (∀ g ∈ s.reading, exec (.holdBegin t) s = .next (if g.kind = .mapRead then { held with reading := none } else b))) ∧
        (max s.now t < s.store.quiet → exec (.holdBegin t) s = .next b) ∧
        (s.store.phase = some .hold → s.store.holdDeadline = some d → exec (.holdEnd t) s = .next (if d ≤ max s.now t
          then { b with store := { s.store with phase := some .mapLoad, holdDeadline := none }, condition := .idle, owner := .mapLoader
                        loader := some { copy0 := [], copy1 := [] }
                        chip := if s.chip.latch ≠ [] ∧ s.chip.loadedAt + Config.latchLapseMax + Config.programMax ≤ max s.now t then
                          { s.chip with cells := Memory.writeLatch s.chip.cells s.chip.latchPage s.chip.latch
                                        latch := [], programming := false }
                          else s.chip }
          else b)) ∧
        (s.pending = [] → s.loader = some l →
          let read : Fin 2 → Nat → Byte := fun copy k => s.chip.read (pageCount s.capacity - 2 + copy.val) k
          (l.copy0.length < 64 → l.copy1 = [] →
            step s = .next { s with loader := some { l with copy0 := l.copy0 ++ [read 0 l.copy0.length] } }) ∧
          (l.copy0.length = 64 → l.copy1.length < 63 →
            step s = .next { s with loader := some { l with copy1 := l.copy1 ++ [read 1 l.copy1.length] } }) ∧
          (l.copy0.length = 64 → l.copy1.length = 63 → step s = .next s))

/-- The map load's end sets the table from the selected copy and enters RUNNING, or with both invalid enters DEGRADED
(07_map_pages 7.2, 7.3, 08_store_states_and_sideband_lines 8.2, 8.8). When each of the loader's reads is made is the model's
choice (log entry 7). -/
def Obligations.MapLoadSelectsACopy : Prop :=
  ∀ (t : Time) (worn : List Host.Cell) (s : State) (t0 : CopyTable) (t1 : CopyTable) (r0 : Rejection) (r1 : Rejection),
    s.owner = .mapLoader →
    (∀ l ∈ s.loader, l.copy0.length ≤ 64 ∧ l.copy1.length ≤ 64) →
      let b := { s.seeing t worn with loader := none, owner := .none }
      let n := pageCount s.capacity
      let l := s.loader.getD { copy0 := [], copy1 := [] }
      let bytes : Nat → List Byte := fun page =>
        let held := if page = n - 2 then l.copy0 else l.copy1
        held ++ ((List.range 64).drop held.length).map fun k => s.reads worn page k
      let usable : Nat → CopyTable → Prop := fun page table =>
        bytes page = List.replicate 64 0xFF ∧ table = { live := [], dead := 0, sequence := 0 } ∨
          bytes page ≠ List.replicate 64 0xFF ∧ rejection (n - 18) (bytes page) = none ∧ table = copyTable (bytes page)
      let bad : Nat → Rejection → Prop := fun page r =>
        bytes page ≠ List.replicate 64 0xFF ∧ rejection (n - 18) (bytes page) = some r
      let ended : State → Host.Outcome State Fault Refusal := fun m => .next (State.finish { m with mgmt := { m.mgmt with
        long := if m.mgmt.long = .restart ∨ m.mgmt.long = .resume then .none else m.mgmt.long } })
      let loaded : Fin 2 → CopyTable → State := fun copy table =>
        { b with remap := { live := table.live, dead := table.dead, copy := some copy, sequence := some table.sequence } }
      let newer1 := 1 ≤ (t1.sequence - t0.sequence).toNat ∧ (t1.sequence - t0.sequence).toNat ≤ 32767
      let answer := exec (.mapLoadEnd t worn) s
      (usable (n - 2) t0 → usable (n - 1) t1 → newer1 → answer = ended (loaded 1 t1).enterRunning) ∧
        (usable (n - 2) t0 → usable (n - 1) t1 → ¬newer1 → answer = ended (loaded 0 t0).enterRunning) ∧
        (usable (n - 2) t0 → bad (n - 1) r1 →
          answer = ended ((loaded 0 t0).append .mapFallback none (some (n - 1)) none r1.code).enterRunning) ∧
        (bad (n - 2) r0 → usable (n - 1) t1 →
          answer = ended ((loaded 1 t1).append .mapFallback none (some (n - 2)) none r0.code).enterRunning) ∧
        (bad (n - 2) r0 → bad (n - 1) r1 → answer = ended
          ((State.append { b with remap := { live := [], dead := 0, copy := none, sequence := none } } .mapInvalid none (some (n - 2))
            (some r1.code.toNat) r0.code).enterDegraded .mapInvalid))

/-- A copy is rejected by the first of eight tests; a record written from a sound table passes them and loads back as that
table (07_map_pages 7.1, 7.2, 11_formats_and_pin_summary 11.8, 11_formats_and_pin_summary 11.1). -/
def Obligations.MapRecordLoadsBackAsItsTable : Prop :=
  ∀ (r : Remap) (sequence : BitVec 16) (logical : Nat) (bytes : List Byte),
      (r.ok → logical ≤ 65536 → (∀ e ∈ r.live, e.page < logical) →
        let record := recordBytes r.live r.dead sequence
        record.length = 64 ∧ isBlank record = false ∧ rejection logical record = none ∧
          copyTable record = { live := r.live, dead := r.dead, sequence }) ∧
      let b : Nat → Nat := fun k => (bytes.getD k 0).toNat
      let n := b 3
      let page : Nat → Nat := fun k => b (6 + 3 * k) + 256 * b (7 + 3 * k)
      let spare : Nat → Nat := fun k => b (8 + 3 * k)
      let dead := b 4 + 256 * b 5
      (rejection logical bytes =
        if b 0 ≠ 0xA5 then some .marker
        else if b 54 + 256 * b 55 ≠ (crc16 (bytes.take 54)).toNat then some .crc
        else if 16 < n then some .count
        else if ∃ k < n, 15 < spare k then some .spareRange
        else if ∃ k < n, ∃ j < k, spare j = spare k then some .spareTwice
        else if ∃ k < n, dead.testBit (spare k) = true then some .liveDead
        else if ∃ k < n, ∃ j < k, page j = page k then some .pageTwice
        else if ∃ k < n, logical ≤ page k then some .pageRange
        else none) ∧
      (copyTable bytes =
        { live := (List.range n).map fun k => { page := page k, spare := Fin.ofNat 16 (spare k) }
          dead := BitVec.ofNat 16 dead, sequence := BitVec.ofNat 16 (b 1 + 256 * b 2) }) ∧
      ([Rejection.marker, .crc, .count, .spareRange, .spareTwice, .liveDead, .pageTwice, .pageRange].map Rejection.code =
        [1, 2, 3, 4, 5, 6, 7, 8])

/-- RESET_N falling drops all work, answers outstanding accesses NOT_READY and puts every block at its pin reset values
(08_store_states_and_sideband_lines 8.11, 01_page_slots 1.11, 02_host_accesses 2.3, 2.8, 04_the_commit_engine 4.9,
05_the_array_port 5.11, 11_formats_and_pin_summary 11.9). That any other presented answer is removed is the model's reading
(log entry 19), as is that the FLUSH and PFW levels, the capacity code and the straps are kept while RESET_N is low (log entry
22). -/
def Obligations.PinResetFall : Prop :=
  ∀ (t : Time) (s : State),
    s.resetN = true →
      let cleared : LastError := { reason := .none, detail := .none, addr := none, size := none, write := none, count := 0 }
      let port : HostPort → HostPort := fun h =>
        if h.state ≠ .idle then h.answering (max s.now t) .notReady 0 cleared
        else if h.rdy = true ∧ h.err = true ∧ h.errcode = 7 then { h with lastError := cleared }
        else { h with lastError := cleared, rdy := false, err := false, errcode := 0, rd := 0, pulseEnd := none }
      let v := { State.reset with
        pending := s.pending, now := max s.now t, arrivals := s.arrivals, resetN := false, capacity := s.capacity
        addrStrap := s.addrStrap, flushSeen := s.flushSeen, pfw := s.pfw, portA := port s.portA, portB := port s.portB, driven := false
        lastLoad := s.lastLoad, chip := s.chip
        store := { state := .starting, cause := none, origin := some .pinReset, phase := some .quietWait, holdDeadline := none
                   quiet := max (max s.now t) ((s.lastLoad.map fun l => l + Config.lapse).getD 0) } }
      exec (.resetNFall t) s = .next v ∧
        (v.aown = false ∧ v.pend = false ∧ v.alert = false ∧ v.addressHighZ = true ∧ v.dataHighZ = true)

/-- RESET_N rising samples straps and levels, drives the port, spends a REQ still asserted, and begins the hold when quiet
(08_store_states_and_sideband_lines 8.2, 8.11, 10_management_port 10.1, 11_formats_and_pin_summary 11.9, 02_host_accesses
2.3). That a rise seen with RESET_N already high changes nothing but the clock is the model's choice (log entry 2), as is the
level of AD between loads (log entry 35). -/
def Obligations.PinResetRise : Prop :=
  ∀ (t : Time) (acap : Fin 4) (addr : BitVec 2) (flush : Bool) (pfw : Bool) (s : State),
    s.store.state = .starting →
    s.store.phase = some .quietWait →
    s.reading = none →
      let rise : HostPort → HostPort := fun h => { h with reqSpent := h.reqSpent || h.req }
      let u := { s with now := max s.now t, resetN := true, capacity := acap, addrStrap := addr, flushSeen := flush, pfw, driven := true
                        portA := rise s.portA, portB := rise s.portB }
      (s.resetN = false → exec (.resetNRise t acap addr flush pfw) s = .next (if s.store.quiet ≤ max s.now t
          then { u with store := { s.store with phase := some .hold, holdDeadline := some (max s.now t + Config.hold) } } else u)) ∧
        (s.resetN = true → exec (.resetNRise t acap addr flush pfw) s = .next { s with now := max s.now t }) ∧
        (u.aown = true ∧ u.addressHighZ = false ∧ (s.condition ≠ .loading → u.dataHighZ = true))

/-- A START or STOP ends the open write and runs its command as one event; a condition inside a byte abandons the transaction
(10_management_port 10.2, 10.3, 10.7). The IDLE state between a START and its address byte (log entry 8) and the drop of
collected bytes outside RECEIVING and GENERAL_CALL (log entry 34) are the model's choices. -/
def Obligations.BusConditionsEndWrites : Prop :=
  ∀ (t : Time) (stop : Bool) (code : Byte) (args : List Byte) (s : State),
    s.resetN = true →
    s.holds s.ageList .dirty →
      let b := { s with now := max s.now t }
      let turn : Bool → State → State := fun stop m => { m with mgmt := { m.mgmt with bus := .idle, addressDue := !stop } }
      let both : State → Prop := fun m => exec (.stopCondition t) s = .next (State.finish (turn true m)) ∧
        exec (.startCondition t) s = .next (State.finish (turn false m))
      (s.mgmt.bus = .receiving → s.mgmt.received = code :: args → s.mgmt.overflow = false → args.length ≤ 3 →
          ∃ v, exec (commandRow t code args) s = .next v ∧ exec (.stopCondition t) s = .next (turn true v) ∧
            exec (.startCondition t) s = .next (turn false v)) ∧
        (s.mgmt.bus = .receiving → s.mgmt.received = code :: args → s.mgmt.overflow = true → both (b.responding [0x04, code])) ∧
        (s.mgmt.bus = .receiving → s.mgmt.received = [] → both b) ∧
        (s.mgmt.bus = .generalCall → both (if s.mgmt.gcByte = some 0x04 then b.sealedTo s.ageList else b)) ∧
        (s.mgmt.bus = .idle ∨ s.mgmt.bus = .transmitting ∨ s.mgmt.bus = .ignoring → both b) ∧
        exec (.misplacedCondition t stop) s = .next { b with mgmt := { s.mgmt with
          bus := .idle, addressDue := !stop, received := [], overflow := false, gcByte := none, sending := false, ack := false, sda := none } }

/-- The address byte selects write, read, general call or neither; after the general-call address only a single 04h is taken
(10_management_port 10.1, 10.2, 10.7). That an address byte with none due changes only the clock (log entry 2), and the fields
for the byte due, the acknowledge, SDA and the master's acknowledges (log entry 8), are the model's choices. -/
def Obligations.AddressAndGeneralCallBytes : Prop :=
  ∀ (t : Time) (byte : Byte) (s : State),
    s.resetN = true →
      let b := { s with now := max s.now t }
      let own := 2 * (0x2C + s.addrStrap.toNat)
      let q := { s.mgmt with addressDue := false, sda := none }
      let port : MgmtPort → Host.Outcome State Fault Refusal := fun m => .next { b with mgmt := m }
      (s.mgmt.addressDue = true → exec (.addressByte t byte) s = port
          (if byte.toNat = 0 then { q with bus := .generalCall, gcByte := none, ack := true }
           else if byte.toNat = own then { q with bus := .receiving, received := [], overflow := false, ack := true }
           else if byte.toNat = own + 1 then { q with bus := .transmitting, readPos := 0, sending := true, ack := true }
           else { q with bus := .ignoring, ack := false })) ∧
        (s.mgmt.addressDue = false → exec (.addressByte t byte) s = .next b) ∧
        (s.mgmt.bus = .generalCall → exec (.generalCallByte t byte) s = port
          (if s.mgmt.gcByte = none ∧ byte = 0x04 then { s.mgmt with gcByte := some 0x04, ack := true, sda := none }
           else { s.mgmt with bus := .ignoring, gcByte := none, ack := false, sda := none }))

/-- Of a write, the first four data bytes are acknowledged and kept; a fifth or later one sets overflow and is not
acknowledged; reads send the response (10_management_port 10.3, 10.4). The fields for the acknowledge and SDA, and that a byte
asked for after a missing acknowledge moves nothing, are the model's reading (log entry 8). -/
def Obligations.DataBytesAreKeptUpToFour : Prop :=
  ∀ (t : Time) (byte : Byte) (ack : Bool) (s : State),
      let b := { s with now := max s.now t }
      let q := s.mgmt
      (q.bus = .receiving → exec (.dataByte t byte) s = .next { b with mgmt :=
          if q.received.length ≤ 3 ∧ q.overflow = false then { q with received := q.received ++ [byte], ack := true, sda := none }
          else { q with overflow := true, ack := false, sda := none } }) ∧
        (q.bus = .transmitting → exec (.responseByte t ack) s = .next { b with mgmt :=
          if q.sending = true then
            { q with sda := some (if q.readPos < q.response.length then q.response.getD q.readPos 0 else 0xFF), ack := false
                     readPos := q.readPos + 1, sending := ack }
          else { q with sda := none, ack := false } })

/-- A received command is refused by the first check of seven that applies, with nothing but its two-byte response changed
(R173). -/
def Obligations.CommandRefusalsInOrder : Prop :=
  ∀ (t : Time) (code : Byte) (args : List Byte) (s : State),
    s.resetN = true →
      let a := args.headD 0
      let v := (args.getD 1 0).toNat + 256 * (args.getD 2 0).toNat
      let known := 1 ≤ code.toNat ∧ code.toNat ≤ 14
      let refused : Byte → Prop := fun result => exec (commandRow t code args) s =
        .next (State.finish (State.responding { s with now := max s.now t } [result, code]))
      (3 < args.length → refused 0x04) ∧
        (args.length ≤ 3 → ¬known → refused 0x06) ∧
        (args.length ≤ 3 → known → args.length ≠ argumentsOf code → refused 0x04) ∧
        (known → args.length = argumentsOf code →
          (s.refusesLong code → refused 0x02) ∧
          (¬s.refusesLong code → argumentRefused code a → refused 0x04) ∧
          (¬s.refusesLong code → ¬argumentRefused code a → s.stateRefuses code a → refused 0x03) ∧
          (¬s.refusesLong code → ¬argumentRefused code a → ¬s.stateRefuses code a → code = 3 → valueRefused a v → refused 0x05))

/-- STATUS, SLOT_READ, MAP_READ and PORT_ERROR return their records as they stand; only PORT_ERROR changes what it reads
(10_management_port 10.4, 10.6, 11_formats_and_pin_summary 11.2, 11.3, 11.4, 11.5, 11.6, 06_spare_pages_and_the_remap_table
6.7, 02_host_accesses 2.8, 08_store_states_and_sideband_lines 8.10). -/
def Obligations.ReadingCommandsReturnTheirRecords : Prop :=
  ∀ (t : Time) (a : Byte) (s : State) (e : RemapEntry),
    s.resetN = true →
      let b := { s with now := max s.now t }
      let ends : State → List Byte → Host.Outcome State Fault Refusal := fun m bytes => .next (State.finish (m.responding bytes))
      let word : Nat → List Byte := fun n => [BitVec.ofNat 8 n, BitVec.ofNat 8 (n / 256)]
      let count : SlotState → Byte := fun st => BitVec.ofNat 8 ((List.finRange 32).countP fun i => decide ((s.slot i).state = st))
      let pinned := ∃ i : SlotIx, (s.slot i).state = .pinned
      let undurable := pinned ∨ ∃ i : SlotIx, (s.slot i).state = .dirty ∨ (s.slot i).state = .sealed ∨ (s.slot i).state = .committing
      let dead := (List.range 16).countP fun k => s.remap.dead.getLsbD k
      let levels := (if s.pfw then 1 else 0) + (if undurable then 2 else 0) + (if s.flushSeen then 4 else 0)
        + (if 0 < s.log.unread ∨ pinned ∨ s.store.state = .degraded then 8 else 0) + (if s.driven then 16 else 0)
      let set : OffsetSet → List Byte := fun x => (List.range 8).map fun k => (x >>> (8 * k)).setWidth 8
      exec (.status t []) s = ends b ([0x00, 0x01, s.store.state.code, causeCode (if s.store.state = .degraded then s.store.cause else none),
            BitVec.ofNat 8 levels, count .free, count .clean, count .dirty, count .sealed, count .committing, count .pinned,
            BitVec.ofNat 8 s.queue.length, BitVec.ofNat 8 s.remap.live.length, BitVec.ofNat 8 dead,
            BitVec.ofNat 8 (16 - s.remap.live.length - dead), ((s.remap.copy.map fun c => BitVec.ofNat 8 c.val).getD 0xFF)]
            ++ word (if s.remap.copy = none then 0xFFFF else (s.remap.sequence.getD 0xFFFF).toNat)
            ++ [BitVec.ofNat 8 s.log.unread, BitVec.ofNat 8 s.capacity.val, s.mgmt.long.code]) ∧
        (a.toNat < 32 →
          let x := s.slot (Fin.ofNat 32 a.toNat)
          exec (.slotRead t [a]) s = ends b ([0x00, 0x09, a, x.state.code] ++ word (x.page.getD 0xFFFF) ++ set x.present ++ set x.dirty
            ++ set (x.fillPending.getD 0) ++ [BitVec.ofNat 8 ((if x.fillPending = none then 0 else 1) + (if x.waitA = none then 0 else 2)
              + (if x.waitB = none then 0 else 4))])) ∧
        (a.toNat < 16 → s.remap.live[a.toNat]? = some e → exec (.mapRead t [a]) s = ends b ([0x00, 0x0A, a] ++ word e.page
          ++ [BitVec.ofNat 8 e.spare.val] ++ word (pageCount s.capacity - 18 + e.spare.val))) ∧
        (a.toNat < 16 → s.remap.live.length ≤ a.toNat → exec (.mapRead t [a]) s = ends b [0x07, 0x0A]) ∧
        (a.toNat < 2 →
          let p : PortId := if a = 0 then .a else .b
          let r := (s.port p).lastError
          exec (.portError t [a]) s = ends (b.modPort p fun h => { h with lastError :=
              { reason := .none, detail := .none, addr := none, size := none, write := none, count := 0 } })
            ([0x00, 0x0B, a, BitVec.ofNat 8 r.reason.code, r.detail.code]
              ++ ((r.addr.map fun (x : BitVec 17) => [(x.setWidth 8 : Byte), (x >>> 8).setWidth 8, (x >>> 16).setWidth 8]).getD [0xFF, 0xFF, 0xFF])
              ++ [((r.size.map fun z => BitVec.ofNat 8 (sizeBytes z)).getD 0xFF), ((r.write.map fun w => if w then 1 else 0).getD 0xFF),
                  BitVec.ofNat 8 r.count]))

/-- CONFIG_GET returns the value in force; CONFIG_SET sets it, and only a new HIGHWATER seals at once (10_management_port
10.6, 03_sealing_and_the_commit_queue 3.3, 3.6). -/
def Obligations.ConfigurationReadAndSet : Prop :=
  ∀ (t : Time) (a : Byte) (lo : Byte) (hi : Byte) (s : State),
    s.resetN = true →
    1 ≤ a.toNat →
    a.toNat ≤ 6 →
    s.holds s.ageList .dirty →
      let b := { s with now := max s.now t }
      let v := lo.toNat + 256 * hi.toNat
      let q := s.params
      let value := [q.settle, q.age, q.highwater, q.stall, q.retries, if q.aged then 1 else 0].getD (a.toNat - 1) 0
      let m := { b with params :=
        { settle := if a = 1 then v else q.settle, age := if a = 2 then v else q.age, highwater := if a = 3 then v else q.highwater
          stall := if a = 4 then v else q.stall, retries := if a = 5 then v else q.retries
          aged := if a = 6 then decide (v = 1) else q.aged } }
      exec (.configGet t [a]) s =
          .next (State.finish (b.responding [0x00, 0x02, a, BitVec.ofNat 8 value, BitVec.ofNat 8 (value / 256)])) ∧
        (¬valueRefused a v → exec (.configSet t [a, lo, hi]) s =
          .next (State.finish ((m.sealedTo (if a = 3 then m.overflow else [])).responding [0x00, 0x03, a, lo, hi])))

/-- LOG_READ returns the oldest unread fault record and marks it read; with none unread it returns EMPTY and changes nothing
(R161). -/
def Obligations.LogReadReturnsOldestUnread : Prop :=
  ∀ (t : Time) (s : State) (before : List FaultRecord) (r : FaultRecord) (after : List FaultRecord),
    s.resetN = true →
      let b := { s with now := max s.now t }
      let page : Option Nat → List Byte := fun p => [BitVec.ofNat 8 (p.getD 0xFFFF), BitVec.ofNat 8 (p.getD 0xFFFF / 256)]
      (s.log.records = before ++ r :: after → (∀ q ∈ before, q.read = true) → r.read = false → exec (.logRead t []) s =
          .next (State.finish (State.responding
            { b with log := { s.log with records := before ++ ({ r with read := true } :: after), unread := s.log.unread - 1 } }
            ([0x00, 0x08, r.sequence.setWidth 8, (r.sequence >>> 8).setWidth 8, r.kind.code] ++ page r.logical ++ page r.physical
              ++ [((r.count.map fun n => BitVec.ofNat 8 n).getD 0xFF), r.detail, BitVec.ofNat 8 (s.log.unread - 1)])))) ∧
        ((∀ q ∈ s.log.records, q.read = true) → exec (.logRead t []) s = .next (State.finish (b.responding [0x07, 0x08])))

/-- QUIESCE in RUNNING seals every DIRTY slot, removes the deadlines and drains, or with nothing to drain is QUIESCED at once
(08_store_states_and_sideband_lines 8.4, 10_management_port 10.6). -/
def Obligations.QuiesceSealsAndDrains : Prop :=
  ∀ (t : Time) (s : State),
    s.resetN = true →
    s.store.state = .running →
    s.mgmt.long = .none →
    s.holds s.ageList .dirty →
      let f := State.sealedTo { s with now := max s.now t } s.ageList
      let m := { f with store := { s.store with state := .draining }, mgmt := { s.mgmt with long := .quiesce }
                        slots := f.slots.map fun (x : Slot) => { x with settle := none, age := none } }
      exec (.quiesce t []) s = .next (State.finish (if s.queue ++ s.ageList = [] ∧ s.commit = none
        then m.enterQuiesced.responding [0x00, 0x05] else m.responding [0x01, 0x05]))

/-- RESUME retakes the port, keeps nothing but the dirty bytes, releases every CLEAN slot and begins the start-up hold
(08_store_states_and_sideband_lines 8.5, 01_page_slots 1.8, 05_the_array_port 5.10, 10_management_port 10.6). That a released
slot keeps its image values is the model's choice (log entry 11). -/
def Obligations.ResumeInvalidatesCleanBytes : Prop :=
  ∀ (t : Time) (s : State),
    s.resetN = true →
    s.store.state = .quiesced →
    s.driven = false →
    s.mgmt.long = .none →
    s.collectionsOk →
    s.freeAscending →
    (∀ i : SlotIx, (s.slot i).setsOk ∧ (s.slot i).idle) →
    s.commit = none →
    s.store.cause = none →
    s.commitOk →
      exec (.resume t []) s = .next (State.finish
        { s with now := max s.now t, driven := true, condition := .unsettled, recency := []
                 freeList := (List.finRange 32).filter fun i => decide ((s.slot i).state = .free ∨ (s.slot i).state = .clean)
                 slots := s.slots.map fun (x : Slot) => if x.state = .free then x else if x.state = .clean then x.emptied
                   else { x with present := x.dirty }
                 store := { s.store with state := .starting, origin := some .resume, phase := some .hold
                                         holdDeadline := some (max s.now t + Config.hold) }
                 mgmt := { s.mgmt with long := .resume, response := [0x01, 0x06] } })

/-- RESTART frees every slot, drops all work, serves the waiting accesses anew, and enters STARTING with its records kept
(08_store_states_and_sideband_lines 8.6, 01_page_slots 1.11, 02_host_accesses 2.7, 04_the_commit_engine 4.9, 05_the_array_port
5.11, 09_fault_log 9.7, 10_management_port 10.6, 10.8). RD 0 and ERRCODE 0 on an OK answer (log entries 12 and 33) and the
dropped read of an abandoned map load (log entry 24) are the model's choices. -/
def Obligations.RestartDropsAllButTheRecords : Prop :=
  ∀ (t : Time) (s : State) (p : PortId) (acc : Access) (q : PortId) (acc2 : Access),
    s.resetN = true →
    (s.mgmt.long = .none ∨ s.mgmt.long = .quiesce) →
      let now := max s.now t
      let quiet := max now ((s.lastLoad.map fun l => l + Config.lapse).getD 0)
      let next := (s.loader.getD { copy0 := [], copy1 := [] }).next
      let reading := if s.reading = none ∧ s.owner = .mapLoader
        then some { kind := .mapRead, page := pageCount s.capacity - 2 + next.1.val, offsets := span next.2 1, dropped := true }
        else s.reading.map fun g => { g with dropped := true }
      let begins := quiet ≤ now ∧ reading = none
      let r := State.reset
      let m := State.append
        { s with now, slots := r.slots, freeList := r.freeList, recency := [], ageList := [], pinned := [], queue := [], owner := .none
                 reading, requests := [], engineReq := none, fairness := 0, driven := true, commit := none, writer := none, loader := none
                 condition := if s.driven = true ∧ s.condition = .idle then .idle else .unsettled
                 remap := { live := [], dead := 0, copy := none, sequence := none }
                 store := { state := .starting, cause := none, origin := some .restart, quiet
                            phase := some (if begins then .hold else .quietWait)
                            holdDeadline := if begins then some (now + Config.hold) else none }
                 mgmt := { s.mgmt with long := .restart, response := [0x01, 0x07] } } .restarted none none none s.store.state.code
      let h := s.port p
      let idle := match p with
        | .a => s.portB.state = .idle
        | .b => s.portA.state = .idle
      let earlier := match p with
        | .a => acc.order ≤ acc2.order
        | .b => acc.order < acc2.order
      let slot0 : Slot := { Slot.reset with page := some acc.page }
      (s.portA.state = .idle → s.portB.state = .idle → exec (.restart t []) s = .next (State.finish m)) ∧
        (idle → h.state = .waitSlot → h.access = some acc → acc.offsets ≠ 0 → exec (.restart t []) s = .next (State.finish (State.setPort
          { m with freeList := r.freeList.tail, ageList := [0]
                   slots := r.slots.set 0 { slot0 with state := .dirty, image := Page.put zeroPage acc.offset acc.bytes
                                                       present := acc.offsets, dirty := acc.offsets, dirtySince := some now } } p
          (h.answering now .none 0 h.lastError)))) ∧
        (idle → h.state = .waitFill ∨ h.state = .waitBypass → h.access = some acc → h.stall ≠ none → acc.offsets ≠ 0 →
          exec (.restart t []) s = .next (State.finish (State.setPort
            { m with freeList := r.freeList.tail, recency := [0], requests := [.fill 0]
                     slots := r.slots.set 0 (Slot.setWait { slot0 with state := .clean, fillPending := some fullSet } p
                       (some acc.offsets)) } p
            { h with state := .waitFill, waited := some 0 }))) ∧
        (p ≠ q → earlier →
          (s.port p).state ≠ .idle → (s.port q).state ≠ .idle → (s.port p).access = some acc → (s.port q).access = some acc2 →
          (s.port p).stall ≠ none → (s.port q).stall ≠ none → acc.offsets ≠ 0 → acc2.offsets ≠ 0 →
          let serve : SlotIx → PortId → Access → State → State := fun j r a v =>
            if (s.port r).state = .waitSlot then v.serveWrite r else v.rereads r a j
          let first := serve 0 p acc m
          let y := first.slot 0
          let joined := Slot.setWait { y with fillPending := some (y.fillPending.getD (~~~y.present)) } q (some acc2.offsets)
          let answer := exec (.restart t []) s
          (acc2.page ≠ acc.page → answer = .next (State.finish (serve 1 q acc2 first))) ∧
          (acc2.page = acc.page → (s.port q).state = .waitSlot → answer = .next (State.finish (first.serveWrite q))) ∧
          (acc2.page = acc.page → (s.port q).state ≠ .waitSlot →
            (subset acc2.offsets y.present = true → answer = .next (State.finish (first.setPort q
              ((s.port q).answering now .none (acc2.readValue fun k => Page.byte y.image k) (s.port q).lastError)))) ∧
            (subset acc2.offsets y.present = false → answer = .next (State.finish (State.setPort
              { first with requests := if y.fillPending = none then first.requests ++ [.fill 0] else first.requests
                           slots := first.slots.set 0 joined } q
              { s.port q with state := .waitFill, waited := some 0 })))))

/-- RETRY queues every PINNED slot as SEALED; DISCARD frees the named PINNED slot, or all, and serves the accesses that wait
(03_sealing_and_the_commit_queue 3.7, 01_page_slots 1.9, 09_fault_log 9.3, 05_the_array_port 5.7, 10_management_port 10.6,
02_host_accesses 2.7, 01_page_slots 1.3, 02_host_accesses 2.4). That waits follow all the freeing (log entry 15), that freed
slots keep their image values (log entry 11) and that the pinned set is an ascending list (log entry 31) are the model's
choices. -/
def Obligations.RetryAndDiscardOfPinnedSlots : Prop :=
  ∀ (t : Time) (s : State) (l : List SlotIx) (a : Byte) (p : PortId) (q : PortId) (acc : Access) (accQ : Access) (j :
    SlotIx) (j2 : SlotIx),
    s.resetN = true →
    s.collectionsOk →
    s.freeAscending →
    s.pinnedAscending →
    s.requests.Nodup →
      let b := { s with now := max s.now t }
      let since : SlotIx → Time := fun k => (s.slot k).dirtySince.getD 0
      let older := s.ageList.filter fun k => decide (s.params.aged = true ∧ ∃ q ∈ s.pinned, since k < since q)
      let o := b.sealedTo older
      let named := (∃ i : SlotIx, (s.slot i).state = .pinned ∧ l = [i] ∧ a = BitVec.ofNat 8 i.val) ∨ l = s.pinned ∧ a = 0xFF
      let r := b.discarded l
      let waits : PortId → Prop := fun p => ∃ k ∈ l, (s.slot k).wait p ≠ none
      let alone := waits p ∧ p ≠ q ∧ (s.port p).access = some acc ∧ (s.port p).stall ≠ none ∧ acc.offsets ≠ 0 ∧ r.uncarried acc.page
      let both := alone ∧ waits q ∧ (s.port q).access = some accQ ∧ (s.port q).stall ≠ none ∧ accQ.offsets ≠ 0 ∧ r.uncarried accQ.page
      let refused : PortId → HostPort := fun p => match (s.port p).access with
        | some x => if ∃ k ∈ l, (s.slot k).wait p ≠ none
            then (s.port p).refusing (max s.now t) x .arrayUnavailable (if s.store.state = .quiesced then .quiesced else .arrayTimeout)
            else s.port p
        | none => s.port p
      let first := match p with
        | .a => acc.order ≤ accQ.order
        | .b => acc.order < accQ.order
      let w := r.serveWrite q
      let answered : State → Prop := fun m =>
        exec (.discard t [a]) s = .next (State.finish (m.responding [0x00, 0x0D, BitVec.ofNat 8 l.length]))
      (s.works → exec (.retry t []) s = .next (State.finish (State.responding
          { o with pinned := [], queue := o.queue ++ s.pinned
                   slots := Vector.ofFn fun k => if k ∈ s.pinned then { o.slot k with state := .sealed, settle := none, age := none }
                     else o.slot k } [0x00, 0x0C, BitVec.ofNat 8 s.pinned.length]))) ∧
        (named → ¬waits .a → ¬waits .b → answered r.serveWaiting) ∧
        (named → ¬s.readable → s.noWriteWaits →
          (∀ x ∈ s.portA.access, waits .a → r.uncarried x.page) → (∀ x ∈ s.portB.access, waits .b → r.uncarried x.page) →
          answered { r with portA := refused .a, portB := refused .b }) ∧
        (named → s.readable → alone → r.freeList.head? = some j →
          (¬waits q → (s.port q).state ≠ .waitSlot → answered (r.rereads p acc j)) ∧
          ((s.port q).state = .waitSlot → (s.port q).access = some accQ → first → ¬waits q →
            answered ((r.rereads p acc j).serveWrite q))) ∧
        (named → s.readable → alone → (s.port q).state = .waitSlot → (s.port q).access = some accQ → ¬first → ¬waits q →
          w.uncarried acc.page →
          (w.takes j → answered (w.rereads p acc j)) ∧
          (w.noneAllocatable → answered (State.setPort { w with requests := w.requests ++ [.bypass p] } p
            { s.port p with state := .waitBypass, waited := none }))) ∧
        (named → s.readable → both → first →
          (accQ.page ≠ acc.page → r.freeList.take 2 = [j, j2] → answered ((r.rereads p acc j).rereads q accQ j2)) ∧
          (accQ.page = acc.page → r.freeList.head? = some j →
            let m := r.rereads p acc j
            answered (State.setPort (m.setSlot j ((m.slot j).setWait q (some accQ.offsets))) q
              { s.port q with state := .waitFill, waited := some j })))
end

