-- ==== Sys2Proof/Laws/Frames.lean ====
section
/-! SUPPORT. Frames: for each shared operation, the parts of the state it can change. Every other part is as it was. -/

namespace Sys2Proof.Machine

/-- Nothing changes but slots and collections. -/
def OnlySlots (s u : State) : Prop :=
  u = { s with slots := u.slots, freeList := u.freeList, recency := u.recency, ageList := u.ageList, pinned := u.pinned,
               queue := u.queue }

theorem OnlySlots.refl (s : State) : OnlySlots s s := rfl

theorem OnlySlots.trans {s u v : State} (h : OnlySlots s u) (k : OnlySlots u v) : OnlySlots s v := by
  unfold OnlySlots at *
  rw [k, h]

/-- Nothing changes but slots, collections, ports and the request list. -/
def OnlyAccess (s u : State) : Prop :=
  u = { s with slots := u.slots, freeList := u.freeList, recency := u.recency, ageList := u.ageList, pinned := u.pinned,
               queue := u.queue, portA := u.portA, portB := u.portB, requests := u.requests }

theorem OnlyAccess.refl (s : State) : OnlyAccess s s := rfl

theorem OnlyAccess.trans {s u v : State} (h : OnlyAccess s u) (k : OnlyAccess u v) : OnlyAccess s v := by
  unfold OnlyAccess at *
  rw [k, h]

/-- Nothing changes but slots, collections, ports, requests, the store record, the port drive and the management record. -/
def OnlyStore (s u : State) : Prop :=
  u = { s with slots := u.slots, freeList := u.freeList, recency := u.recency, ageList := u.ageList, pinned := u.pinned,
               queue := u.queue, portA := u.portA, portB := u.portB, requests := u.requests, store := u.store, mgmt := u.mgmt,
               driven := u.driven }

theorem OnlyStore.refl (s : State) : OnlyStore s s := rfl

theorem OnlyStore.trans {s u v : State} (h : OnlyStore s u) (k : OnlyStore u v) : OnlyStore s v := by
  unfold OnlyStore at *
  rw [k, h]

/-- Nothing changes but slots, collections, ports, requests and the array port's, engine's and map writer's records. -/
def OnlyGrant (s u : State) : Prop :=
  u = { s with slots := u.slots, freeList := u.freeList, recency := u.recency, ageList := u.ageList, pinned := u.pinned,
               queue := u.queue, portA := u.portA, portB := u.portB, requests := u.requests, owner := u.owner, reading := u.reading,
               engineReq := u.engineReq, fairness := u.fairness, condition := u.condition, lastLoad := u.lastLoad, chip := u.chip,
               commit := u.commit, writer := u.writer }

theorem OnlyGrant.refl (s : State) : OnlyGrant s s := rfl

theorem OnlyGrant.trans {s u v : State} (h : OnlyGrant s u) (k : OnlyGrant u v) : OnlyGrant s v := by
  unfold OnlyGrant at *
  rw [k, h]

theorem OnlySlots.toOnlyAccess {s u : State} (h : OnlySlots s u) : OnlyAccess s u := by
  unfold OnlySlots at h
  unfold OnlyAccess
  rw [h]

theorem OnlyAccess.toOnlyStore {s u : State} (h : OnlyAccess s u) : OnlyStore s u := by
  unfold OnlyAccess at h
  unfold OnlyStore
  rw [h]

theorem OnlyAccess.toOnlyGrant {s u : State} (h : OnlyAccess s u) : OnlyGrant s u := by
  unfold OnlyAccess at h
  unfold OnlyGrant
  rw [h]

/-- A frame through a fold: every step keeps it. -/
theorem OnlySlots.foldl {α : Type} {f : State → α → State} (hf : ∀ s a, OnlySlots s (f s a)) (l : List α) (s : State) :
    OnlySlots s (l.foldl f s) := by
  induction l generalizing s with
  | nil => exact OnlySlots.refl s
  | cons a rest ih => exact (hf s a).trans (ih (f s a))

/-- A frame through a fold: every step keeps it. -/
theorem OnlyAccess.foldl {α : Type} {f : State → α → State} (hf : ∀ s a, OnlyAccess s (f s a)) (l : List α) (s : State) :
    OnlyAccess s (l.foldl f s) := by
  induction l generalizing s with
  | nil => exact OnlyAccess.refl s
  | cons a rest ih => exact (hf s a).trans (ih (f s a))

/-- A frame through a fold: every step keeps it. -/
theorem OnlyStore.foldl {α : Type} {f : State → α → State} (hf : ∀ s a, OnlyStore s (f s a)) (l : List α) (s : State) :
    OnlyStore s (l.foldl f s) := by
  induction l generalizing s with
  | nil => exact OnlyStore.refl s
  | cons a rest ih => exact (hf s a).trans (ih (f s a))

/-- A frame through a fold: every step keeps it. -/
theorem OnlyGrant.foldl {α : Type} {f : State → α → State} (hf : ∀ s a, OnlyGrant s (f s a)) (l : List α) (s : State) :
    OnlyGrant s (l.foldl f s) := by
  induction l generalizing s with
  | nil => exact OnlyGrant.refl s
  | cons a rest ih => exact (hf s a).trans (ih (f s a))

/-! ### Slots and collections -/

theorem State.setSlot_frame (s : State) (i : SlotIx) (x : Slot) : OnlySlots s (s.setSlot i x) := rfl

theorem State.modSlot_frame (s : State) (i : SlotIx) (f : Slot → Slot) : OnlySlots s (s.modSlot i f) := rfl

theorem State.leave_frame (s : State) (i : SlotIx) : OnlySlots s (s.leave i) := by
  unfold State.leave
  split <;> rfl

theorem State.join_frame (s : State) (i : SlotIx) (st : SlotState) : OnlySlots s (s.join i st) := by
  cases st <;> rfl

theorem State.moveTo_frame (s : State) (i : SlotIx) (st : SlotState) : OnlySlots s (s.moveTo i st) :=
  ((s.leave_frame i).trans (State.modSlot_frame _ i _)).trans (State.join_frame _ i st)

theorem State.allocate_frame (s : State) (i : SlotIx) (page : Nat) : OnlySlots s (s.allocate i page) :=
  (s.moveTo_frame i .clean).trans (State.modSlot_frame _ i _)

theorem State.freeSlot_frame (s : State) (i : SlotIx) : OnlySlots s (s.freeSlot i) :=
  (s.moveTo_frame i .free).trans (State.modSlot_frame _ i _)

theorem State.releaseIfEmpty_frame (s : State) (i : SlotIx) : OnlySlots s (s.releaseIfEmpty i) := by
  unfold State.releaseIfEmpty
  dsimp only
  split
  · exact s.freeSlot_frame i
  · exact OnlySlots.refl s

theorem State.giveDeadlines_frame (s : State) (i : SlotIx) : OnlySlots s (s.giveDeadlines i) := by
  unfold State.giveDeadlines
  split
  · exact s.modSlot_frame i _
  · exact OnlySlots.refl s

theorem State.clearDeadlines_frame (s : State) : OnlySlots s s.clearDeadlines :=
  OnlySlots.foldl (fun s i => s.modSlot_frame i _) allSlots s

theorem State.sealOne_frame (s : State) (i : SlotIx) : OnlySlots s (s.sealOne i) := by
  unfold State.sealOne
  split
  · exact s.moveTo_frame i .sealed
  · exact OnlySlots.refl s

theorem State.sealNamed_frame (s : State) (i : SlotIx) : OnlySlots s (s.sealNamed i) := by
  unfold State.sealNamed
  split
  · split
    · exact (OnlySlots.foldl State.sealOne_frame _ s).trans (State.sealOne_frame _ i)
    · exact s.sealOne_frame i
  · exact OnlySlots.refl s

theorem State.sealAll_frame (s : State) : OnlySlots s s.sealAll := OnlySlots.foldl State.sealOne_frame _ s

theorem State.fullPage_frame (s : State) (i : SlotIx) : OnlySlots s (s.fullPage i) := by
  unfold State.fullPage
  split
  · exact s.sealNamed_frame i
  · exact OnlySlots.refl s

theorem State.highWater_frame (s : State) : OnlySlots s s.highWater := by
  unfold State.highWater
  split
  · exact OnlySlots.foldl State.sealOne_frame _ s
  · exact OnlySlots.refl s

theorem State.merge_frame (s : State) (i : SlotIx) (acc : Access) : OnlySlots s (s.merge i acc) := by
  unfold State.merge
  cases (s.slot i).state
  · exact OnlySlots.refl s
  · exact (((s.modSlot_frame i _).trans (State.moveTo_frame _ i .dirty)).trans (State.giveDeadlines_frame _ i)).trans
      (State.highWater_frame _)
  · exact ((s.modSlot_frame i _).trans (State.modSlot_frame _ i _)).trans (State.fullPage_frame _ i)
  · exact s.modSlot_frame i _
  · exact s.modSlot_frame i _
  · exact s.modSlot_frame i _

theorem State.touch_frame (s : State) (i : SlotIx) : OnlySlots s (s.touch i) := by
  unfold State.touch
  split
  · exact s.moveTo_frame i .clean
  all_goals exact OnlySlots.refl s

theorem State.pfwSeal_frame (s : State) (i : SlotIx) : OnlySlots s (s.pfwSeal i) := by
  unfold State.pfwSeal
  split
  · exact s.sealNamed_frame i
  · exact OnlySlots.refl s

theorem State.leaveCommitting_frame (s : State) (i : SlotIx) : OnlySlots s (s.leaveCommitting i) := by
  unfold State.leaveCommitting
  split
  · exact s.moveTo_frame i .clean
  · exact ((((s.moveTo_frame i .dirty).trans (State.giveDeadlines_frame _ i)).trans (State.fullPage_frame _ i)).trans
      (State.pfwSeal_frame _ i)).trans (State.highWater_frame _)

theorem State.pin_frame (s : State) (i : SlotIx) (add : OffsetSet) : OnlySlots s (s.pin i add) :=
  (s.modSlot_frame i _).trans (State.moveTo_frame _ i .pinned)

theorem State.invalidateSlot_frame (s : State) (i : SlotIx) : OnlySlots s (s.invalidateSlot i) := by
  unfold State.invalidateSlot
  split
  · exact OnlySlots.refl s
  · exact (s.modSlot_frame i _).trans (State.releaseIfEmpty_frame _ i)

theorem State.retrySeals_frame (s : State) : OnlySlots s s.retrySeals := by
  unfold State.retrySeals
  split
  · exact OnlySlots.foldl State.sealOne_frame _ s
  · exact OnlySlots.refl s

/-! ### Ports, waits and requests -/

theorem State.setPort_frame (s : State) (p : PortId) (h : HostPort) : OnlyAccess s (s.setPort p h) := by
  cases p <;> rfl

theorem State.modPort_frame (s : State) (p : PortId) (f : HostPort → HostPort) : OnlyAccess s (s.modPort p f) :=
  s.setPort_frame p _

theorem State.answer_frame (s : State) (p : PortId) (rd : BitVec 32) : OnlyAccess s (s.answer p rd) := s.modPort_frame p _

theorem State.answerError_frame (s : State) (p : PortId) (reason : Reason) (detail : Detail) :
    OnlyAccess s (s.answerError p reason detail) := s.modPort_frame p _

theorem State.answerNotReady_frame (s : State) (p : PortId) : OnlyAccess s (s.answerNotReady p) := s.modPort_frame p _

theorem State.enterWait_frame (s : State) (p : PortId) (acc : Access) (st : PortState) (w : Option SlotIx) :
    OnlyAccess s (s.enterWait p acc st w) := s.modPort_frame p _

theorem State.requestFill_frame (s : State) (i : SlotIx) : OnlyAccess s (s.requestFill i) := by
  unfold State.requestFill
  split <;> rfl

theorem State.waitOnSlot_frame (s : State) (i : SlotIx) (p : PortId) (acc : Access) : OnlyAccess s (s.waitOnSlot i p acc) :=
  ((s.requestFill_frame i).trans (State.modSlot_frame _ i _).toOnlyAccess).trans (State.enterWait_frame _ p acc _ _)

theorem State.readHit_frame (s : State) (p : PortId) (i : SlotIx) (acc : Access) : OnlyAccess s (s.readHit p i acc) :=
  (s.touch_frame i).toOnlyAccess.trans (State.answer_frame _ p _)

theorem State.readMiss_frame (s : State) (p : PortId) (acc : Access) (found : Option SlotIx) :
    OnlyAccess s (s.readMiss p acc found) := by
  unfold State.readMiss
  split
  · exact s.answerError_frame p _ _
  · split
    · exact s.waitOnSlot_frame _ p acc
    · split
      · exact (s.allocate_frame _ _).toOnlyAccess.trans (State.waitOnSlot_frame _ _ p acc)
      · exact OnlyAccess.trans (u := { s with requests := s.requests ++ [Request.bypass p] }) rfl
          (State.enterWait_frame _ p acc .waitBypass none)

theorem State.readPath_frame (s : State) (p : PortId) (acc : Access) : OnlyAccess s (s.readPath p acc) := by
  unfold State.readPath
  split
  · split
    · exact s.readHit_frame p _ acc
    · exact s.readMiss_frame p acc _
  · exact s.readMiss_frame p acc _

theorem State.writeInto_frame (s : State) (p : PortId) (acc : Access) : OnlyAccess s (s.writeInto p acc) := by
  unfold State.writeInto
  split
  · exact (s.merge_frame _ acc).toOnlyAccess.trans (State.answer_frame _ p 0)
  · split
    · exact ((s.allocate_frame _ _).trans (State.merge_frame _ _ acc)).toOnlyAccess.trans (State.answer_frame _ p 0)
    · exact OnlyAccess.refl s

theorem State.writePath_frame (s : State) (p : PortId) (acc : Access) : OnlyAccess s (s.writePath p acc) := by
  unfold State.writePath
  split
  · exact s.writeInto_frame p acc
  · split
    · exact s.answerError_frame p _ _
    · exact s.enterWait_frame p acc _ _

theorem State.serveWrite_frame (s : State) (p : PortId) : OnlyAccess s (s.serveWrite p) := by
  unfold State.serveWrite
  split
  · exact s.writeInto_frame p _
  · exact OnlyAccess.refl s

theorem State.serveWaiting_frame (s : State) : OnlyAccess s s.serveWaiting := OnlyAccess.foldl State.serveWrite_frame _ s

theorem State.serveRestarted_frame (s : State) (l : List PortId) : OnlyAccess s (s.serveRestarted l) := by
  refine OnlyAccess.foldl (fun s p => ?_) _ s
  split
  · split
    · exact s.readPath_frame p _
    · exact OnlyAccess.refl s
  · exact s.serveWrite_frame p

theorem State.orderRequests_frame (s : State) (n : Nat) : OnlyAccess s (s.orderRequests n) := rfl

theorem State.withdrawFill_frame (s : State) (i : SlotIx) : OnlyAccess s (s.withdrawFill i) := rfl

theorem State.refuseWaiter_frame (s : State) (i : SlotIx) (detail : Detail) (p : PortId) :
    OnlyAccess s (s.refuseWaiter i detail p) := by
  unfold State.refuseWaiter
  split
  · exact (s.modSlot_frame i _).toOnlyAccess.trans (State.answerError_frame _ p _ _)
  · exact OnlyAccess.refl s

theorem State.withdrawRequest_frame (detail : Detail) (s : State) (r : Request) :
    OnlyAccess s (State.withdrawRequest detail s r) := by
  cases r with
  | fill i =>
    exact (((s.withdrawFill_frame i).trans (State.refuseWaiter_frame _ i detail .a)).trans
      (State.refuseWaiter_frame _ i detail .b)).trans (State.releaseIfEmpty_frame _ i).toOnlyAccess
  | bypass p =>
    exact OnlyAccess.trans (u := { s with requests := s.requests.erase (Request.bypass p) }) rfl
      (State.answerError_frame _ p .arrayUnavailable detail)

theorem State.withdrawAll_frame (s : State) (detail : Detail) : OnlyAccess s (s.withdrawAll detail) :=
  OnlyAccess.foldl (State.withdrawRequest_frame detail) _ s

theorem State.refuseWrite_frame (reason : Reason) (detail : Detail) (s : State) (p : PortId) :
    OnlyAccess s (State.refuseWrite reason detail s p) := by
  unfold State.refuseWrite
  split
  · exact s.answerError_frame p _ _
  · exact OnlyAccess.refl s

theorem State.refuseWrites_frame (s : State) (reason : Reason) (detail : Detail) : OnlyAccess s (s.refuseWrites reason detail) :=
  OnlyAccess.foldl (State.refuseWrite_frame reason detail) _ s

theorem State.answerWaiter_frame (i : SlotIx) (s : State) (p : PortId) : OnlyAccess s (State.answerWaiter i s p) := by
  unfold State.answerWaiter
  split
  · split
    · exact (s.modSlot_frame i _).toOnlyAccess.trans (State.answer_frame _ p _)
    · exact OnlyAccess.refl s
  · exact OnlyAccess.refl s

theorem State.answerWaiters_frame (s : State) (i : SlotIx) : OnlyAccess s (s.answerWaiters i) :=
  OnlyAccess.foldl (State.answerWaiter_frame i) _ s

theorem State.completeFill_frame (s : State) (i : SlotIx) (page : Nat) (offs : OffsetSet) :
    OnlyAccess s (s.completeFill i page offs) := by
  have h := (s.modSlot_frame i fun x =>
    { x.land (fun k => s.chip.read page k) offs with fillPending := none }).toOnlyAccess.trans (State.answerWaiters_frame _ i)
  unfold State.completeFill
  dsimp only
  split
  · exact h
  · exact h.trans (State.touch_frame _ i).toOnlyAccess

/-! ### The store controller -/

theorem State.endLong_frame (s : State) (long : LongCommand) : OnlyStore s (s.endLong long) := by
  unfold State.endLong
  split <;> rfl

theorem State.enterRunning_frame (s : State) : OnlyStore s s.enterRunning := by
  unfold State.enterRunning
  refine OnlyStore.trans (u := { s with store :=
    { s.store with state := .running, cause := none, origin := none, phase := none, holdDeadline := none } }) rfl (OnlySlots.toOnlyAccess ?_).toOnlyStore
  exact ((OnlySlots.foldl (fun s i => s.modSlot_frame i _) _ _).trans (OnlySlots.foldl State.fullPage_frame _ _)).trans
    (State.highWater_frame _)

theorem State.enterDegraded_frame (s : State) (cause : Cause) : OnlyStore s (s.enterDegraded cause) := by
  have h : OnlyStore s ((({ s with store :=
      { s.store with state := .degraded, cause := some cause, origin := none, phase := none, holdDeadline := none } } :
      State).clearDeadlines.refuseWrites .storeFull .degraded).endLong .quiesce) :=
    OnlyStore.trans (u := { s with store :=
      { s.store with state := .degraded, cause := some cause, origin := none, phase := none, holdDeadline := none } }) rfl
      (((State.clearDeadlines_frame _).toOnlyAccess.trans (State.refuseWrites_frame _ _ _)).toOnlyStore.trans
        (State.endLong_frame _ _))
  cases cause with
  | mapInvalid => exact h
  | mapWriteFail => exact h
  | arrayTimeout => exact h.trans (State.withdrawAll_frame _ _).toOnlyStore

theorem State.releasePort_frame (s : State) : OnlyStore s s.releasePort := rfl

theorem State.beginHold_frame (s : State) : OnlyStore s s.beginHold := rfl

theorem State.enterQuiesced_frame (s : State) : OnlyStore s s.enterQuiesced := by
  have h : OnlyStore s (((({ s with store := { s.store with state := .quiesced } } : State).withdrawAll
      .quiesced).serveWaiting.refuseWrites .storeFull .quiesced).endLong .quiesce) :=
    OnlyStore.trans (u := { s with store := { s.store with state := .quiesced } }) rfl
      ((((State.withdrawAll_frame _ _).trans (State.serveWaiting_frame _)).trans (State.refuseWrites_frame _ _ _)).toOnlyStore.trans
        (State.endLong_frame _ _))
  unfold State.enterQuiesced
  dsimp only
  split
  · exact h.trans (State.releasePort_frame _)
  · exact h

theorem State.drainCheck_frame (s : State) : OnlyStore s s.drainCheck := by
  unfold State.drainCheck
  split
  · exact s.enterQuiesced_frame
  · exact OnlyStore.refl s

theorem State.tryHold_frame (s : State) : OnlyStore s s.tryHold := by
  unfold State.tryHold
  split
  · exact s.beginHold_frame
  · exact OnlyStore.refl s

/-! ### The array port -/

theorem State.setAttempt_frame (s : State) (a : Attempt) : OnlyGrant s (s.setAttempt a) := by
  unfold State.setAttempt
  split
  · rfl
  · split <;> rfl

theorem State.issueLoad_frame (s : State) : OnlyGrant s s.issueLoad := by
  unfold State.issueLoad
  split
  · exact OnlyGrant.refl s
  · split
    · exact OnlyGrant.refl s
    · exact (s.setAttempt_frame _).trans rfl

theorem State.offer_frame (s : State) : OnlyGrant s s.offer := by
  unfold State.offer
  split <;> rfl

theorem State.snapshot_frame (s : State) : OnlyGrant s s.snapshot := by
  unfold State.snapshot
  split
  · exact OnlyGrant.refl s
  · rename_i i rest _
    refine OnlyGrant.trans (((s.moveTo_frame i .committing).trans (State.modSlot_frame _ i fun x =>
      { x with dirty := 0, dirtySince := none })).toOnlyAccess.toOnlyGrant.trans ?_) (State.issueLoad_frame _)
    rfl

theorem State.grantEngine_frame (s : State) : OnlyGrant s s.grantEngine := by
  unfold State.grantEngine
  split
  · exact OnlyGrant.refl s
  · exact s.snapshot_frame
  · exact OnlyGrant.trans (u := { s with owner := .mapWriter, engineReq := none, fairness := 0 }) rfl (State.issueLoad_frame _)

theorem State.grantRequest_frame (s : State) (r : Request) : OnlyGrant s (s.grantRequest r) := by
  have h : OnlyGrant s s.takeRequest := rfl
  cases r with
  | fill i =>
    simp only [State.grantRequest]
    split
    · exact h.trans ((State.completeFill_frame _ _ _ _).trans (State.serveWaiting_frame _)).toOnlyGrant
    · exact h.trans rfl
  | bypass p =>
    simp only [State.grantRequest]
    split
    · exact h
    · exact h.trans rfl

theorem State.arbitrate_frame (n : Nat) (s : State) : OnlyGrant s (State.arbitrate n s) := by
  induction n generalizing s with
  | zero => exact OnlyGrant.refl s
  | succ n ih =>
    have h := s.offer_frame
    simp only [State.arbitrate]
    split
    · exact h
    · split
      · exact h.trans (State.grantEngine_frame _)
      · split
        · exact (h.trans (State.grantRequest_frame _ _)).trans (ih _)
        · split
          · exact h.trans (State.grantEngine_frame _)
          · exact h

/-- The end of an event leaves the queue of commands, the clock, the lines, the store, the table, the log, the parameters and
the management record as they are. -/
theorem State.finish_frame (s : State) : OnlyGrant s s.finish := State.arbitrate_frame _ s

/-! ### The map loader's reads -/

/-- A read adds one byte: to copy 0 until it is whole, then to copy 1. -/
theorem MapLoader.take_cases (l : MapLoader) (b : Byte) :
    l.copy0.length < 64 ∧ l.take b = { l with copy0 := l.copy0 ++ [b] } ∨
      64 ≤ l.copy0.length ∧ l.take b = { l with copy1 := l.copy1 ++ [b] } := by
  unfold MapLoader.take
  split
  · exact .inl ⟨‹_›, rfl⟩
  · exact .inr ⟨Nat.le_of_not_lt ‹_›, rfl⟩

/-- A step with no command waiting changes nothing, or adds the byte at the loader's next offset while fewer than 127 are held. -/
theorem State.readMap_cases (s : State) :
    s.readMap = s ∨ ∃ l, s.loader = some l ∧ l.copy0.length + l.copy1.length < 127 ∧
      s.readMap = { s with loader := some (l.take (s.chip.read (mapPage s.capacity l.next.1) l.next.2)) } := by
  unfold State.readMap
  split
  · exact .inl rfl
  · split
    · exact .inr ⟨_, ‹_›, ‹_›, rfl⟩
    · exact .inl rfl

/-- Nothing but the loader's bytes changes. -/
theorem State.readMap_frame (s : State) : s.readMap = { s with loader := s.readMap.loader } := by
  obtain h | ⟨l, -, -, h⟩ := s.readMap_cases <;> rw [h]

/-- With at most 64 bytes held, a copy has 64 bytes when the load ends. -/
theorem heldThenRead_length (held : List Byte) (read : Nat → Byte) (h : held.length ≤ 64) :
    (heldThenRead held read).length = 64 := by
  simp [heldThenRead]
  omega

end Sys2Proof.Machine
end

