-- ==== Sys2Proof/Laws/Memory.lean ====
section
/-! SUPPORT. The array's stored bytes: the canonical form, what a read gives after a write, and that every operation keeps the
form. -/

namespace Sys2Proof.Machine

/-- The canonical form of a list with a head: the head is stored, lies below all the rest, and the rest is in form. -/
theorem Memory.wf_cons (c : Host.Cell) (l : List Host.Cell) :
    Memory.wf (c :: l) = true ↔ c.2 ≠ Memory.unlisted ∧ (∀ d ∈ l, c.1 < d.1) ∧ Memory.wf l = true := by
  induction l generalizing c with
  | nil => simp [Memory.wf]
  | cons d rest ih =>
    simp only [Memory.wf, Bool.and_eq_true, decide_eq_true_eq, List.mem_cons, forall_eq_or_imp]
    constructor
    · rintro ⟨⟨h1, h2⟩, h3⟩
      exact ⟨h1, ⟨h2, fun e he => Nat.lt_trans h2 (((ih d).1 h3).2.1 e he)⟩, h3⟩
    · rintro ⟨h1, ⟨h2, -⟩, h3⟩
      exact ⟨⟨h1, h2⟩, h3⟩

/-- An address below every listed one reads as unlisted. -/
theorem Memory.read_below {l : List Host.Cell} {a : Nat} (h : ∀ c ∈ l, a < c.1) : Memory.read l a = Memory.unlisted := by
  induction l with
  | nil => rfl
  | cons c rest ih =>
    have hc := h c List.mem_cons_self
    simp [Memory.read, Nat.ne_of_gt hc, ih fun d hd => h d (List.mem_cons_of_mem c hd)]

/-- What a read gives with a cell put in front. -/
theorem Memory.read_consCell {l : List Host.Cell} {a : Nat} (v : Byte) (b : Nat) (h : ∀ c ∈ l, a < c.1) :
    Memory.read (Memory.consCell a v l) b = if a = b then v else Memory.read l b := by
  unfold Memory.consCell
  by_cases hv : v = Memory.unlisted
  · by_cases hb : a = b
    · subst hb
      simp [hv, Memory.read_below h]
    · simp [hv, hb]
  · simp [hv, Memory.read]

/-- The addresses listed with a cell put in front. -/
theorem Memory.above_consCell {l : List Host.Cell} {a m : Nat} (v : Byte) (hm : m < a) (h : ∀ c ∈ l, m < c.1) :
    ∀ c ∈ Memory.consCell a v l, m < c.1 := by
  intro c hc
  unfold Memory.consCell at hc
  split at hc
  · exact h c hc
  · rcases List.mem_cons.1 hc with rfl | hc
    · exact hm
    · exact h c hc

theorem Memory.wf_consCell {l : List Host.Cell} {a : Nat} (v : Byte) (h : ∀ c ∈ l, a < c.1) (hl : Memory.wf l = true) :
    Memory.wf (Memory.consCell a v l) = true := by
  unfold Memory.consCell
  split
  · exact hl
  · exact (Memory.wf_cons _ _).2 ⟨‹_›, h, hl⟩

/-- A write lists no address at or below a bound that both the list and the written address lie above. -/
theorem Memory.above_write {l : List Host.Cell} {a m : Nat} (v : Byte) (hm : m < a) (h : ∀ c ∈ l, m < c.1) :
    ∀ c ∈ Memory.write l a v, m < c.1 := by
  induction l with
  | nil => exact Memory.above_consCell v hm h
  | cons d rest ih =>
    have hd := h d List.mem_cons_self
    have hr : ∀ c ∈ rest, m < c.1 := fun c hc => h c (List.mem_cons_of_mem d hc)
    unfold Memory.write
    split
    · exact Memory.above_consCell v hm h
    · split
      · exact Memory.above_consCell v hm hr
      · intro c hc
        rcases List.mem_cons.1 hc with rfl | hc
        · exact hd
        · exact ih hr c hc

/-- A write keeps the canonical form. -/
theorem Memory.write_wf {l : List Host.Cell} (a : Nat) (v : Byte) (h : Memory.wf l = true) :
    Memory.wf (Memory.write l a v) = true := by
  induction l with
  | nil => exact Memory.wf_consCell v (by simp) rfl
  | cons d rest ih =>
    obtain ⟨hd, hlt, hr⟩ := (Memory.wf_cons d rest).1 h
    unfold Memory.write
    split
    · rename_i hlo
      refine Memory.wf_consCell v ?_ h
      intro c hc
      rcases List.mem_cons.1 hc with rfl | hc
      · exact hlo
      · exact Nat.lt_trans hlo (hlt c hc)
    · split
      · rename_i he
        exact Memory.wf_consCell v (fun c hc => he ▸ hlt c hc) hr
      · rename_i hlo hne
        exact (Memory.wf_cons d _).2 ⟨hd, Memory.above_write v (by omega) hlt, ih hr⟩

/-- A read after a write in a list in form: the value written at its address, and at every other address what was there. -/
theorem Memory.read_write {l : List Host.Cell} (a b : Nat) (v : Byte) (h : Memory.wf l = true) :
    Memory.read (Memory.write l a v) b = if a = b then v else Memory.read l b := by
  induction l with
  | nil => exact Memory.read_consCell v b (by simp)
  | cons d rest ih =>
    obtain ⟨hd, hlt, hr⟩ := (Memory.wf_cons d rest).1 h
    unfold Memory.write
    split
    · rename_i hlo
      refine Memory.read_consCell v b ?_
      intro c hc
      rcases List.mem_cons.1 hc with rfl | hc
      · exact hlo
      · exact Nat.lt_trans hlo (hlt c hc)
    · split
      · rename_i he
        rw [Memory.read_consCell v b (fun c hc => he ▸ hlt c hc)]
        by_cases hb : a = b
        · simp [hb]
        · simp [hb, Memory.read, ← he]
      · rename_i hlo hne
        by_cases hb : d.1 = b
        · have : a ≠ b := fun e => hne (by omega)
          simp [Memory.read, hb, this]
        · simp [Memory.read, hb, ih hr]

theorem Memory.read_write_same {l : List Host.Cell} (a : Nat) (v : Byte) (h : Memory.wf l = true) :
    Memory.read (Memory.write l a v) a = v := by
  simp [Memory.read_write a a v h]

theorem Memory.read_write_ne {l : List Host.Cell} {a b : Nat} (v : Byte) (h : Memory.wf l = true) (ne : a ≠ b) :
    Memory.read (Memory.write l a v) b = Memory.read l b := by
  simp [Memory.read_write a b v h, ne]

/-- Writing leaves every other address alone, whatever the list's form. -/
theorem Memory.read_write_other {l : List Host.Cell} {a b : Nat} (v : Byte) (ne : a ≠ b) :
    Memory.read (Memory.write l a v) b = Memory.read l b := by
  have cons : ∀ r : List Host.Cell, Memory.read (Memory.consCell a v r) b = Memory.read r b := by
    intro r
    unfold Memory.consCell
    split
    · rfl
    · simp [Memory.read, ne]
  induction l with
  | nil => exact cons []
  | cons d rest ih =>
    unfold Memory.write
    split
    · exact cons _
    · split
      · rename_i he
        rw [cons]
        simp [Memory.read, ← he, ne]
      · simp [Memory.read, ih]

/-- Programming's writes keep the canonical form. -/
theorem Memory.writeLatch_wf {l : List Host.Cell} (page : Nat) (latch : List (Nat × Byte)) (h : Memory.wf l = true) :
    Memory.wf (Memory.writeLatch l page latch) = true := by
  induction latch generalizing l with
  | nil => exact h
  | cons e rest ih => exact ih (Memory.write_wf _ _ h)

/-- Programming leaves every byte alone that is not latched. -/
theorem Memory.read_writeLatch_other {l : List Host.Cell} {page a : Nat} {latch : List (Nat × Byte)}
    (h : ∀ e ∈ latch, arrayAddress page e.1 ≠ a) : Memory.read (Memory.writeLatch l page latch) a = Memory.read l a := by
  induction latch generalizing l with
  | nil => rfl
  | cons e rest ih =>
    rw [Memory.writeLatch, ih fun d hd => h d (List.mem_cons_of_mem e hd),
      Memory.read_write_other e.2 (h e List.mem_cons_self)]

/-- The observed bytes keep the canonical form. -/
theorem Memory.observe_wf {l : List Host.Cell} (limit : Nat) (worn : List Host.Cell) (h : Memory.wf l = true) :
    Memory.wf (Memory.observe limit l worn) = true := by
  induction worn generalizing l with
  | nil => exact h
  | cons c rest ih =>
    unfold Memory.observe
    split
    · exact ih (Memory.write_wf _ _ h)
    · exact ih h

/-- The observed bytes leave every other address alone. -/
theorem Memory.read_observe_other {l : List Host.Cell} {limit a : Nat} {worn : List Host.Cell} (h : ∀ e ∈ worn, e.1 ≠ a) :
    Memory.read (Memory.observe limit l worn) a = Memory.read l a := by
  induction worn generalizing l with
  | nil => rfl
  | cons c rest ih =>
    have hr := fun e he => h e (List.mem_cons_of_mem c he)
    unfold Memory.observe
    split
    · rw [ih hr, Memory.read_write_other c.2 (h c List.mem_cons_self)]
    · exact ih hr

/-! ### The array -/

/-- A page load stores nothing. -/
@[simp] theorem Chip.load_cells (c : Chip) (now : Time) (page off : Nat) (b : Byte) : (c.load now page off b).cells = c.cells := by
  unfold Chip.load
  split
  · rfl
  · split <;> rfl

/-- The start of programming stores nothing. -/
@[simp] theorem Chip.begin_cells (c : Chip) : c.begin.cells = c.cells := by
  unfold Chip.begin
  split <;> rfl

/-- The end of programming keeps the canonical form. -/
theorem Chip.finish_wf {c : Chip} (h : Memory.wf c.cells = true) : Memory.wf c.finish.cells = true :=
  Memory.writeLatch_wf _ _ h

/-- Programming that must have ended keeps the canonical form. -/
theorem Chip.advance_wf {c : Chip} (now : Time) (h : Memory.wf c.cells = true) : Memory.wf (c.advance now).cells = true := by
  unfold Chip.advance
  split
  · exact Chip.finish_wf h
  · exact h

/-- The bytes found changed keep the canonical form. -/
theorem State.observe_wf {s : State} (worn : List Host.Cell) (h : Memory.wf s.chip.cells = true) :
    Memory.wf (s.observe worn).chip.cells = true := Memory.observe_wf _ _ h

/-- The array at reset is in form. -/
theorem Memory.reset_wf : Memory.wf State.reset.chip.cells = true := rfl

end Sys2Proof.Machine
end

