-- ==== Sys2Proof/Laws/State.lean ====
section
/-! SUPPORT. One lemma per field and update of the state's small updates, and what reading a slot or a port gives after them. -/

namespace Sys2Proof.Machine

/-! ### tick -/

@[simp] theorem State.tick_pending (s : State) (t : Time) : (s.tick t).pending = s.pending := rfl
@[simp] theorem State.tick_now (s : State) (t : Time) : (s.tick t).now = max s.now t := rfl
@[simp] theorem State.tick_arrivals (s : State) (t : Time) : (s.tick t).arrivals = s.arrivals := rfl
@[simp] theorem State.tick_resetN (s : State) (t : Time) : (s.tick t).resetN = s.resetN := rfl
@[simp] theorem State.tick_capacity (s : State) (t : Time) : (s.tick t).capacity = s.capacity := rfl
@[simp] theorem State.tick_addrStrap (s : State) (t : Time) : (s.tick t).addrStrap = s.addrStrap := rfl
@[simp] theorem State.tick_flushSeen (s : State) (t : Time) : (s.tick t).flushSeen = s.flushSeen := rfl
@[simp] theorem State.tick_pfw (s : State) (t : Time) : (s.tick t).pfw = s.pfw := rfl
@[simp] theorem State.tick_slots (s : State) (t : Time) : (s.tick t).slots = s.slots := rfl
@[simp] theorem State.tick_freeList (s : State) (t : Time) : (s.tick t).freeList = s.freeList := rfl
@[simp] theorem State.tick_recency (s : State) (t : Time) : (s.tick t).recency = s.recency := rfl
@[simp] theorem State.tick_ageList (s : State) (t : Time) : (s.tick t).ageList = s.ageList := rfl
@[simp] theorem State.tick_pinned (s : State) (t : Time) : (s.tick t).pinned = s.pinned := rfl
@[simp] theorem State.tick_queue (s : State) (t : Time) : (s.tick t).queue = s.queue := rfl
@[simp] theorem State.tick_portA (s : State) (t : Time) : (s.tick t).portA = s.portA := rfl
@[simp] theorem State.tick_portB (s : State) (t : Time) : (s.tick t).portB = s.portB := rfl
@[simp] theorem State.tick_owner (s : State) (t : Time) : (s.tick t).owner = s.owner := rfl
@[simp] theorem State.tick_reading (s : State) (t : Time) : (s.tick t).reading = s.reading := rfl
@[simp] theorem State.tick_condition (s : State) (t : Time) : (s.tick t).condition = s.condition := rfl
@[simp] theorem State.tick_requests (s : State) (t : Time) : (s.tick t).requests = s.requests := rfl
@[simp] theorem State.tick_engineReq (s : State) (t : Time) : (s.tick t).engineReq = s.engineReq := rfl
@[simp] theorem State.tick_fairness (s : State) (t : Time) : (s.tick t).fairness = s.fairness := rfl
@[simp] theorem State.tick_driven (s : State) (t : Time) : (s.tick t).driven = s.driven := rfl
@[simp] theorem State.tick_lastLoad (s : State) (t : Time) : (s.tick t).lastLoad = s.lastLoad := rfl
@[simp] theorem State.tick_chip (s : State) (t : Time) : (s.tick t).chip = s.chip := rfl
@[simp] theorem State.tick_commit (s : State) (t : Time) : (s.tick t).commit = s.commit := rfl
@[simp] theorem State.tick_writer (s : State) (t : Time) : (s.tick t).writer = s.writer := rfl
@[simp] theorem State.tick_loader (s : State) (t : Time) : (s.tick t).loader = s.loader := rfl
@[simp] theorem State.tick_remap (s : State) (t : Time) : (s.tick t).remap = s.remap := rfl
@[simp] theorem State.tick_store (s : State) (t : Time) : (s.tick t).store = s.store := rfl
@[simp] theorem State.tick_log (s : State) (t : Time) : (s.tick t).log = s.log := rfl
@[simp] theorem State.tick_params (s : State) (t : Time) : (s.tick t).params = s.params := rfl
@[simp] theorem State.tick_mgmt (s : State) (t : Time) : (s.tick t).mgmt = s.mgmt := rfl

/-! ### setSlot -/

@[simp] theorem State.setSlot_pending (s : State) (i : SlotIx) (x : Slot) : (s.setSlot i x).pending = s.pending := rfl
@[simp] theorem State.setSlot_now (s : State) (i : SlotIx) (x : Slot) : (s.setSlot i x).now = s.now := rfl
@[simp] theorem State.setSlot_arrivals (s : State) (i : SlotIx) (x : Slot) : (s.setSlot i x).arrivals = s.arrivals := rfl
@[simp] theorem State.setSlot_resetN (s : State) (i : SlotIx) (x : Slot) : (s.setSlot i x).resetN = s.resetN := rfl
@[simp] theorem State.setSlot_capacity (s : State) (i : SlotIx) (x : Slot) : (s.setSlot i x).capacity = s.capacity := rfl
@[simp] theorem State.setSlot_addrStrap (s : State) (i : SlotIx) (x : Slot) : (s.setSlot i x).addrStrap = s.addrStrap := rfl
@[simp] theorem State.setSlot_flushSeen (s : State) (i : SlotIx) (x : Slot) : (s.setSlot i x).flushSeen = s.flushSeen := rfl
@[simp] theorem State.setSlot_pfw (s : State) (i : SlotIx) (x : Slot) : (s.setSlot i x).pfw = s.pfw := rfl
@[simp] theorem State.setSlot_slots (s : State) (i : SlotIx) (x : Slot) : (s.setSlot i x).slots = s.slots.set i.val x := rfl
@[simp] theorem State.setSlot_freeList (s : State) (i : SlotIx) (x : Slot) : (s.setSlot i x).freeList = s.freeList := rfl
@[simp] theorem State.setSlot_recency (s : State) (i : SlotIx) (x : Slot) : (s.setSlot i x).recency = s.recency := rfl
@[simp] theorem State.setSlot_ageList (s : State) (i : SlotIx) (x : Slot) : (s.setSlot i x).ageList = s.ageList := rfl
@[simp] theorem State.setSlot_pinned (s : State) (i : SlotIx) (x : Slot) : (s.setSlot i x).pinned = s.pinned := rfl
@[simp] theorem State.setSlot_queue (s : State) (i : SlotIx) (x : Slot) : (s.setSlot i x).queue = s.queue := rfl
@[simp] theorem State.setSlot_portA (s : State) (i : SlotIx) (x : Slot) : (s.setSlot i x).portA = s.portA := rfl
@[simp] theorem State.setSlot_portB (s : State) (i : SlotIx) (x : Slot) : (s.setSlot i x).portB = s.portB := rfl
@[simp] theorem State.setSlot_owner (s : State) (i : SlotIx) (x : Slot) : (s.setSlot i x).owner = s.owner := rfl
@[simp] theorem State.setSlot_reading (s : State) (i : SlotIx) (x : Slot) : (s.setSlot i x).reading = s.reading := rfl
@[simp] theorem State.setSlot_condition (s : State) (i : SlotIx) (x : Slot) : (s.setSlot i x).condition = s.condition := rfl
@[simp] theorem State.setSlot_requests (s : State) (i : SlotIx) (x : Slot) : (s.setSlot i x).requests = s.requests := rfl
@[simp] theorem State.setSlot_engineReq (s : State) (i : SlotIx) (x : Slot) : (s.setSlot i x).engineReq = s.engineReq := rfl
@[simp] theorem State.setSlot_fairness (s : State) (i : SlotIx) (x : Slot) : (s.setSlot i x).fairness = s.fairness := rfl
@[simp] theorem State.setSlot_driven (s : State) (i : SlotIx) (x : Slot) : (s.setSlot i x).driven = s.driven := rfl
@[simp] theorem State.setSlot_lastLoad (s : State) (i : SlotIx) (x : Slot) : (s.setSlot i x).lastLoad = s.lastLoad := rfl
@[simp] theorem State.setSlot_chip (s : State) (i : SlotIx) (x : Slot) : (s.setSlot i x).chip = s.chip := rfl
@[simp] theorem State.setSlot_commit (s : State) (i : SlotIx) (x : Slot) : (s.setSlot i x).commit = s.commit := rfl
@[simp] theorem State.setSlot_writer (s : State) (i : SlotIx) (x : Slot) : (s.setSlot i x).writer = s.writer := rfl
@[simp] theorem State.setSlot_loader (s : State) (i : SlotIx) (x : Slot) : (s.setSlot i x).loader = s.loader := rfl
@[simp] theorem State.setSlot_remap (s : State) (i : SlotIx) (x : Slot) : (s.setSlot i x).remap = s.remap := rfl
@[simp] theorem State.setSlot_store (s : State) (i : SlotIx) (x : Slot) : (s.setSlot i x).store = s.store := rfl
@[simp] theorem State.setSlot_log (s : State) (i : SlotIx) (x : Slot) : (s.setSlot i x).log = s.log := rfl
@[simp] theorem State.setSlot_params (s : State) (i : SlotIx) (x : Slot) : (s.setSlot i x).params = s.params := rfl
@[simp] theorem State.setSlot_mgmt (s : State) (i : SlotIx) (x : Slot) : (s.setSlot i x).mgmt = s.mgmt := rfl

/-! ### modSlot -/

@[simp] theorem State.modSlot_pending (s : State) (i : SlotIx) (f : Slot → Slot) : (s.modSlot i f).pending = s.pending := rfl
@[simp] theorem State.modSlot_now (s : State) (i : SlotIx) (f : Slot → Slot) : (s.modSlot i f).now = s.now := rfl
@[simp] theorem State.modSlot_arrivals (s : State) (i : SlotIx) (f : Slot → Slot) : (s.modSlot i f).arrivals = s.arrivals := rfl
@[simp] theorem State.modSlot_resetN (s : State) (i : SlotIx) (f : Slot → Slot) : (s.modSlot i f).resetN = s.resetN := rfl
@[simp] theorem State.modSlot_capacity (s : State) (i : SlotIx) (f : Slot → Slot) : (s.modSlot i f).capacity = s.capacity := rfl
@[simp] theorem State.modSlot_addrStrap (s : State) (i : SlotIx) (f : Slot → Slot) :
    (s.modSlot i f).addrStrap = s.addrStrap := rfl
@[simp] theorem State.modSlot_flushSeen (s : State) (i : SlotIx) (f : Slot → Slot) :
    (s.modSlot i f).flushSeen = s.flushSeen := rfl
@[simp] theorem State.modSlot_pfw (s : State) (i : SlotIx) (f : Slot → Slot) : (s.modSlot i f).pfw = s.pfw := rfl
@[simp] theorem State.modSlot_slots (s : State) (i : SlotIx) (f : Slot → Slot) :
    (s.modSlot i f).slots = s.slots.set i.val (f (s.slot i)) := rfl
@[simp] theorem State.modSlot_freeList (s : State) (i : SlotIx) (f : Slot → Slot) : (s.modSlot i f).freeList = s.freeList := rfl
@[simp] theorem State.modSlot_recency (s : State) (i : SlotIx) (f : Slot → Slot) : (s.modSlot i f).recency = s.recency := rfl
@[simp] theorem State.modSlot_ageList (s : State) (i : SlotIx) (f : Slot → Slot) : (s.modSlot i f).ageList = s.ageList := rfl
@[simp] theorem State.modSlot_pinned (s : State) (i : SlotIx) (f : Slot → Slot) : (s.modSlot i f).pinned = s.pinned := rfl
@[simp] theorem State.modSlot_queue (s : State) (i : SlotIx) (f : Slot → Slot) : (s.modSlot i f).queue = s.queue := rfl
@[simp] theorem State.modSlot_portA (s : State) (i : SlotIx) (f : Slot → Slot) : (s.modSlot i f).portA = s.portA := rfl
@[simp] theorem State.modSlot_portB (s : State) (i : SlotIx) (f : Slot → Slot) : (s.modSlot i f).portB = s.portB := rfl
@[simp] theorem State.modSlot_owner (s : State) (i : SlotIx) (f : Slot → Slot) : (s.modSlot i f).owner = s.owner := rfl
@[simp] theorem State.modSlot_reading (s : State) (i : SlotIx) (f : Slot → Slot) : (s.modSlot i f).reading = s.reading := rfl
@[simp] theorem State.modSlot_condition (s : State) (i : SlotIx) (f : Slot → Slot) :
    (s.modSlot i f).condition = s.condition := rfl
@[simp] theorem State.modSlot_requests (s : State) (i : SlotIx) (f : Slot → Slot) : (s.modSlot i f).requests = s.requests := rfl
@[simp] theorem State.modSlot_engineReq (s : State) (i : SlotIx) (f : Slot → Slot) :
    (s.modSlot i f).engineReq = s.engineReq := rfl
@[simp] theorem State.modSlot_fairness (s : State) (i : SlotIx) (f : Slot → Slot) : (s.modSlot i f).fairness = s.fairness := rfl
@[simp] theorem State.modSlot_driven (s : State) (i : SlotIx) (f : Slot → Slot) : (s.modSlot i f).driven = s.driven := rfl
@[simp] theorem State.modSlot_lastLoad (s : State) (i : SlotIx) (f : Slot → Slot) : (s.modSlot i f).lastLoad = s.lastLoad := rfl
@[simp] theorem State.modSlot_chip (s : State) (i : SlotIx) (f : Slot → Slot) : (s.modSlot i f).chip = s.chip := rfl
@[simp] theorem State.modSlot_commit (s : State) (i : SlotIx) (f : Slot → Slot) : (s.modSlot i f).commit = s.commit := rfl
@[simp] theorem State.modSlot_writer (s : State) (i : SlotIx) (f : Slot → Slot) : (s.modSlot i f).writer = s.writer := rfl
@[simp] theorem State.modSlot_loader (s : State) (i : SlotIx) (f : Slot → Slot) : (s.modSlot i f).loader = s.loader := rfl
@[simp] theorem State.modSlot_remap (s : State) (i : SlotIx) (f : Slot → Slot) : (s.modSlot i f).remap = s.remap := rfl
@[simp] theorem State.modSlot_store (s : State) (i : SlotIx) (f : Slot → Slot) : (s.modSlot i f).store = s.store := rfl
@[simp] theorem State.modSlot_log (s : State) (i : SlotIx) (f : Slot → Slot) : (s.modSlot i f).log = s.log := rfl
@[simp] theorem State.modSlot_params (s : State) (i : SlotIx) (f : Slot → Slot) : (s.modSlot i f).params = s.params := rfl
@[simp] theorem State.modSlot_mgmt (s : State) (i : SlotIx) (f : Slot → Slot) : (s.modSlot i f).mgmt = s.mgmt := rfl

/-! ### setPort -/

@[simp] theorem State.setPort_pending (s : State) (p : PortId) (h : HostPort) :
    (s.setPort p h).pending = s.pending := by cases p <;> rfl
@[simp] theorem State.setPort_now (s : State) (p : PortId) (h : HostPort) : (s.setPort p h).now = s.now := by cases p <;> rfl
@[simp] theorem State.setPort_arrivals (s : State) (p : PortId) (h : HostPort) :
    (s.setPort p h).arrivals = s.arrivals := by cases p <;> rfl
@[simp] theorem State.setPort_resetN (s : State) (p : PortId) (h : HostPort) :
    (s.setPort p h).resetN = s.resetN := by cases p <;> rfl
@[simp] theorem State.setPort_capacity (s : State) (p : PortId) (h : HostPort) :
    (s.setPort p h).capacity = s.capacity := by cases p <;> rfl
@[simp] theorem State.setPort_addrStrap (s : State) (p : PortId) (h : HostPort) :
    (s.setPort p h).addrStrap = s.addrStrap := by cases p <;> rfl
@[simp] theorem State.setPort_flushSeen (s : State) (p : PortId) (h : HostPort) :
    (s.setPort p h).flushSeen = s.flushSeen := by cases p <;> rfl
@[simp] theorem State.setPort_pfw (s : State) (p : PortId) (h : HostPort) : (s.setPort p h).pfw = s.pfw := by cases p <;> rfl
@[simp] theorem State.setPort_slots (s : State) (p : PortId) (h : HostPort) :
    (s.setPort p h).slots = s.slots := by cases p <;> rfl
@[simp] theorem State.setPort_freeList (s : State) (p : PortId) (h : HostPort) :
    (s.setPort p h).freeList = s.freeList := by cases p <;> rfl
@[simp] theorem State.setPort_recency (s : State) (p : PortId) (h : HostPort) :
    (s.setPort p h).recency = s.recency := by cases p <;> rfl
@[simp] theorem State.setPort_ageList (s : State) (p : PortId) (h : HostPort) :
    (s.setPort p h).ageList = s.ageList := by cases p <;> rfl
@[simp] theorem State.setPort_pinned (s : State) (p : PortId) (h : HostPort) :
    (s.setPort p h).pinned = s.pinned := by cases p <;> rfl
@[simp] theorem State.setPort_queue (s : State) (p : PortId) (h : HostPort) :
    (s.setPort p h).queue = s.queue := by cases p <;> rfl
@[simp] theorem State.setPort_owner (s : State) (p : PortId) (h : HostPort) :
    (s.setPort p h).owner = s.owner := by cases p <;> rfl
@[simp] theorem State.setPort_reading (s : State) (p : PortId) (h : HostPort) :
    (s.setPort p h).reading = s.reading := by cases p <;> rfl
@[simp] theorem State.setPort_condition (s : State) (p : PortId) (h : HostPort) :
    (s.setPort p h).condition = s.condition := by cases p <;> rfl
@[simp] theorem State.setPort_requests (s : State) (p : PortId) (h : HostPort) :
    (s.setPort p h).requests = s.requests := by cases p <;> rfl
@[simp] theorem State.setPort_engineReq (s : State) (p : PortId) (h : HostPort) :
    (s.setPort p h).engineReq = s.engineReq := by cases p <;> rfl
@[simp] theorem State.setPort_fairness (s : State) (p : PortId) (h : HostPort) :
    (s.setPort p h).fairness = s.fairness := by cases p <;> rfl
@[simp] theorem State.setPort_driven (s : State) (p : PortId) (h : HostPort) :
    (s.setPort p h).driven = s.driven := by cases p <;> rfl
@[simp] theorem State.setPort_lastLoad (s : State) (p : PortId) (h : HostPort) :
    (s.setPort p h).lastLoad = s.lastLoad := by cases p <;> rfl
@[simp] theorem State.setPort_chip (s : State) (p : PortId) (h : HostPort) : (s.setPort p h).chip = s.chip := by cases p <;> rfl
@[simp] theorem State.setPort_commit (s : State) (p : PortId) (h : HostPort) :
    (s.setPort p h).commit = s.commit := by cases p <;> rfl
@[simp] theorem State.setPort_writer (s : State) (p : PortId) (h : HostPort) :
    (s.setPort p h).writer = s.writer := by cases p <;> rfl
@[simp] theorem State.setPort_loader (s : State) (p : PortId) (h : HostPort) :
    (s.setPort p h).loader = s.loader := by cases p <;> rfl
@[simp] theorem State.setPort_remap (s : State) (p : PortId) (h : HostPort) :
    (s.setPort p h).remap = s.remap := by cases p <;> rfl
@[simp] theorem State.setPort_store (s : State) (p : PortId) (h : HostPort) :
    (s.setPort p h).store = s.store := by cases p <;> rfl
@[simp] theorem State.setPort_log (s : State) (p : PortId) (h : HostPort) : (s.setPort p h).log = s.log := by cases p <;> rfl
@[simp] theorem State.setPort_params (s : State) (p : PortId) (h : HostPort) :
    (s.setPort p h).params = s.params := by cases p <;> rfl
@[simp] theorem State.setPort_mgmt (s : State) (p : PortId) (h : HostPort) : (s.setPort p h).mgmt = s.mgmt := by cases p <;> rfl

/-! ### modPort -/

@[simp] theorem State.modPort_pending (s : State) (p : PortId) (f : HostPort → HostPort) :
    (s.modPort p f).pending = s.pending := by cases p <;> rfl
@[simp] theorem State.modPort_now (s : State) (p : PortId) (f : HostPort → HostPort) :
    (s.modPort p f).now = s.now := by cases p <;> rfl
@[simp] theorem State.modPort_arrivals (s : State) (p : PortId) (f : HostPort → HostPort) :
    (s.modPort p f).arrivals = s.arrivals := by cases p <;> rfl
@[simp] theorem State.modPort_resetN (s : State) (p : PortId) (f : HostPort → HostPort) :
    (s.modPort p f).resetN = s.resetN := by cases p <;> rfl
@[simp] theorem State.modPort_capacity (s : State) (p : PortId) (f : HostPort → HostPort) :
    (s.modPort p f).capacity = s.capacity := by cases p <;> rfl
@[simp] theorem State.modPort_addrStrap (s : State) (p : PortId) (f : HostPort → HostPort) :
    (s.modPort p f).addrStrap = s.addrStrap := by cases p <;> rfl
@[simp] theorem State.modPort_flushSeen (s : State) (p : PortId) (f : HostPort → HostPort) :
    (s.modPort p f).flushSeen = s.flushSeen := by cases p <;> rfl
@[simp] theorem State.modPort_pfw (s : State) (p : PortId) (f : HostPort → HostPort) :
    (s.modPort p f).pfw = s.pfw := by cases p <;> rfl
@[simp] theorem State.modPort_slots (s : State) (p : PortId) (f : HostPort → HostPort) :
    (s.modPort p f).slots = s.slots := by cases p <;> rfl
@[simp] theorem State.modPort_freeList (s : State) (p : PortId) (f : HostPort → HostPort) :
    (s.modPort p f).freeList = s.freeList := by cases p <;> rfl
@[simp] theorem State.modPort_recency (s : State) (p : PortId) (f : HostPort → HostPort) :
    (s.modPort p f).recency = s.recency := by cases p <;> rfl
@[simp] theorem State.modPort_ageList (s : State) (p : PortId) (f : HostPort → HostPort) :
    (s.modPort p f).ageList = s.ageList := by cases p <;> rfl
@[simp] theorem State.modPort_pinned (s : State) (p : PortId) (f : HostPort → HostPort) :
    (s.modPort p f).pinned = s.pinned := by cases p <;> rfl
@[simp] theorem State.modPort_queue (s : State) (p : PortId) (f : HostPort → HostPort) :
    (s.modPort p f).queue = s.queue := by cases p <;> rfl
@[simp] theorem State.modPort_owner (s : State) (p : PortId) (f : HostPort → HostPort) :
    (s.modPort p f).owner = s.owner := by cases p <;> rfl
@[simp] theorem State.modPort_reading (s : State) (p : PortId) (f : HostPort → HostPort) :
    (s.modPort p f).reading = s.reading := by cases p <;> rfl
@[simp] theorem State.modPort_condition (s : State) (p : PortId) (f : HostPort → HostPort) :
    (s.modPort p f).condition = s.condition := by cases p <;> rfl
@[simp] theorem State.modPort_requests (s : State) (p : PortId) (f : HostPort → HostPort) :
    (s.modPort p f).requests = s.requests := by cases p <;> rfl
@[simp] theorem State.modPort_engineReq (s : State) (p : PortId) (f : HostPort → HostPort) :
    (s.modPort p f).engineReq = s.engineReq := by cases p <;> rfl
@[simp] theorem State.modPort_fairness (s : State) (p : PortId) (f : HostPort → HostPort) :
    (s.modPort p f).fairness = s.fairness := by cases p <;> rfl
@[simp] theorem State.modPort_driven (s : State) (p : PortId) (f : HostPort → HostPort) :
    (s.modPort p f).driven = s.driven := by cases p <;> rfl
@[simp] theorem State.modPort_lastLoad (s : State) (p : PortId) (f : HostPort → HostPort) :
    (s.modPort p f).lastLoad = s.lastLoad := by cases p <;> rfl
@[simp] theorem State.modPort_chip (s : State) (p : PortId) (f : HostPort → HostPort) :
    (s.modPort p f).chip = s.chip := by cases p <;> rfl
@[simp] theorem State.modPort_commit (s : State) (p : PortId) (f : HostPort → HostPort) :
    (s.modPort p f).commit = s.commit := by cases p <;> rfl
@[simp] theorem State.modPort_writer (s : State) (p : PortId) (f : HostPort → HostPort) :
    (s.modPort p f).writer = s.writer := by cases p <;> rfl
@[simp] theorem State.modPort_loader (s : State) (p : PortId) (f : HostPort → HostPort) :
    (s.modPort p f).loader = s.loader := by cases p <;> rfl
@[simp] theorem State.modPort_remap (s : State) (p : PortId) (f : HostPort → HostPort) :
    (s.modPort p f).remap = s.remap := by cases p <;> rfl
@[simp] theorem State.modPort_store (s : State) (p : PortId) (f : HostPort → HostPort) :
    (s.modPort p f).store = s.store := by cases p <;> rfl
@[simp] theorem State.modPort_log (s : State) (p : PortId) (f : HostPort → HostPort) :
    (s.modPort p f).log = s.log := by cases p <;> rfl
@[simp] theorem State.modPort_params (s : State) (p : PortId) (f : HostPort → HostPort) :
    (s.modPort p f).params = s.params := by cases p <;> rfl
@[simp] theorem State.modPort_mgmt (s : State) (p : PortId) (f : HostPort → HostPort) :
    (s.modPort p f).mgmt = s.mgmt := by cases p <;> rfl

/-! ### append -/

@[simp] theorem State.append_pending (s : State) (k : FaultKind) (l p n : Option Nat) (d : Byte) :
    (s.append k l p n d).pending = s.pending := rfl
@[simp] theorem State.append_now (s : State) (k : FaultKind) (l p n : Option Nat) (d : Byte) :
    (s.append k l p n d).now = s.now := rfl
@[simp] theorem State.append_arrivals (s : State) (k : FaultKind) (l p n : Option Nat) (d : Byte) :
    (s.append k l p n d).arrivals = s.arrivals := rfl
@[simp] theorem State.append_resetN (s : State) (k : FaultKind) (l p n : Option Nat) (d : Byte) :
    (s.append k l p n d).resetN = s.resetN := rfl
@[simp] theorem State.append_capacity (s : State) (k : FaultKind) (l p n : Option Nat) (d : Byte) :
    (s.append k l p n d).capacity = s.capacity := rfl
@[simp] theorem State.append_addrStrap (s : State) (k : FaultKind) (l p n : Option Nat) (d : Byte) :
    (s.append k l p n d).addrStrap = s.addrStrap := rfl
@[simp] theorem State.append_flushSeen (s : State) (k : FaultKind) (l p n : Option Nat) (d : Byte) :
    (s.append k l p n d).flushSeen = s.flushSeen := rfl
@[simp] theorem State.append_pfw (s : State) (k : FaultKind) (l p n : Option Nat) (d : Byte) :
    (s.append k l p n d).pfw = s.pfw := rfl
@[simp] theorem State.append_slots (s : State) (k : FaultKind) (l p n : Option Nat) (d : Byte) :
    (s.append k l p n d).slots = s.slots := rfl
@[simp] theorem State.append_freeList (s : State) (k : FaultKind) (l p n : Option Nat) (d : Byte) :
    (s.append k l p n d).freeList = s.freeList := rfl
@[simp] theorem State.append_recency (s : State) (k : FaultKind) (l p n : Option Nat) (d : Byte) :
    (s.append k l p n d).recency = s.recency := rfl
@[simp] theorem State.append_ageList (s : State) (k : FaultKind) (l p n : Option Nat) (d : Byte) :
    (s.append k l p n d).ageList = s.ageList := rfl
@[simp] theorem State.append_pinned (s : State) (k : FaultKind) (l p n : Option Nat) (d : Byte) :
    (s.append k l p n d).pinned = s.pinned := rfl
@[simp] theorem State.append_queue (s : State) (k : FaultKind) (l p n : Option Nat) (d : Byte) :
    (s.append k l p n d).queue = s.queue := rfl
@[simp] theorem State.append_portA (s : State) (k : FaultKind) (l p n : Option Nat) (d : Byte) :
    (s.append k l p n d).portA = s.portA := rfl
@[simp] theorem State.append_portB (s : State) (k : FaultKind) (l p n : Option Nat) (d : Byte) :
    (s.append k l p n d).portB = s.portB := rfl
@[simp] theorem State.append_owner (s : State) (k : FaultKind) (l p n : Option Nat) (d : Byte) :
    (s.append k l p n d).owner = s.owner := rfl
@[simp] theorem State.append_reading (s : State) (k : FaultKind) (l p n : Option Nat) (d : Byte) :
    (s.append k l p n d).reading = s.reading := rfl
@[simp] theorem State.append_condition (s : State) (k : FaultKind) (l p n : Option Nat) (d : Byte) :
    (s.append k l p n d).condition = s.condition := rfl
@[simp] theorem State.append_requests (s : State) (k : FaultKind) (l p n : Option Nat) (d : Byte) :
    (s.append k l p n d).requests = s.requests := rfl
@[simp] theorem State.append_engineReq (s : State) (k : FaultKind) (l p n : Option Nat) (d : Byte) :
    (s.append k l p n d).engineReq = s.engineReq := rfl
@[simp] theorem State.append_fairness (s : State) (k : FaultKind) (l p n : Option Nat) (d : Byte) :
    (s.append k l p n d).fairness = s.fairness := rfl
@[simp] theorem State.append_driven (s : State) (k : FaultKind) (l p n : Option Nat) (d : Byte) :
    (s.append k l p n d).driven = s.driven := rfl
@[simp] theorem State.append_lastLoad (s : State) (k : FaultKind) (l p n : Option Nat) (d : Byte) :
    (s.append k l p n d).lastLoad = s.lastLoad := rfl
@[simp] theorem State.append_chip (s : State) (k : FaultKind) (l p n : Option Nat) (d : Byte) :
    (s.append k l p n d).chip = s.chip := rfl
@[simp] theorem State.append_commit (s : State) (k : FaultKind) (l p n : Option Nat) (d : Byte) :
    (s.append k l p n d).commit = s.commit := rfl
@[simp] theorem State.append_writer (s : State) (k : FaultKind) (l p n : Option Nat) (d : Byte) :
    (s.append k l p n d).writer = s.writer := rfl
@[simp] theorem State.append_loader (s : State) (k : FaultKind) (l p n : Option Nat) (d : Byte) :
    (s.append k l p n d).loader = s.loader := rfl
@[simp] theorem State.append_remap (s : State) (k : FaultKind) (l p n : Option Nat) (d : Byte) :
    (s.append k l p n d).remap = s.remap := rfl
@[simp] theorem State.append_store (s : State) (k : FaultKind) (l p n : Option Nat) (d : Byte) :
    (s.append k l p n d).store = s.store := rfl
@[simp] theorem State.append_log (s : State) (k : FaultKind) (l p n : Option Nat) (d : Byte) :
    (s.append k l p n d).log = s.log.append k l p n d := rfl
@[simp] theorem State.append_params (s : State) (k : FaultKind) (l p n : Option Nat) (d : Byte) :
    (s.append k l p n d).params = s.params := rfl
@[simp] theorem State.append_mgmt (s : State) (k : FaultKind) (l p n : Option Nat) (d : Byte) :
    (s.append k l p n d).mgmt = s.mgmt := rfl

/-! ### observe -/

@[simp] theorem State.observe_pending (s : State) (w : List Host.Cell) : (s.observe w).pending = s.pending := rfl
@[simp] theorem State.observe_now (s : State) (w : List Host.Cell) : (s.observe w).now = s.now := rfl
@[simp] theorem State.observe_arrivals (s : State) (w : List Host.Cell) : (s.observe w).arrivals = s.arrivals := rfl
@[simp] theorem State.observe_resetN (s : State) (w : List Host.Cell) : (s.observe w).resetN = s.resetN := rfl
@[simp] theorem State.observe_capacity (s : State) (w : List Host.Cell) : (s.observe w).capacity = s.capacity := rfl
@[simp] theorem State.observe_addrStrap (s : State) (w : List Host.Cell) : (s.observe w).addrStrap = s.addrStrap := rfl
@[simp] theorem State.observe_flushSeen (s : State) (w : List Host.Cell) : (s.observe w).flushSeen = s.flushSeen := rfl
@[simp] theorem State.observe_pfw (s : State) (w : List Host.Cell) : (s.observe w).pfw = s.pfw := rfl
@[simp] theorem State.observe_slots (s : State) (w : List Host.Cell) : (s.observe w).slots = s.slots := rfl
@[simp] theorem State.observe_freeList (s : State) (w : List Host.Cell) : (s.observe w).freeList = s.freeList := rfl
@[simp] theorem State.observe_recency (s : State) (w : List Host.Cell) : (s.observe w).recency = s.recency := rfl
@[simp] theorem State.observe_ageList (s : State) (w : List Host.Cell) : (s.observe w).ageList = s.ageList := rfl
@[simp] theorem State.observe_pinned (s : State) (w : List Host.Cell) : (s.observe w).pinned = s.pinned := rfl
@[simp] theorem State.observe_queue (s : State) (w : List Host.Cell) : (s.observe w).queue = s.queue := rfl
@[simp] theorem State.observe_portA (s : State) (w : List Host.Cell) : (s.observe w).portA = s.portA := rfl
@[simp] theorem State.observe_portB (s : State) (w : List Host.Cell) : (s.observe w).portB = s.portB := rfl
@[simp] theorem State.observe_owner (s : State) (w : List Host.Cell) : (s.observe w).owner = s.owner := rfl
@[simp] theorem State.observe_reading (s : State) (w : List Host.Cell) : (s.observe w).reading = s.reading := rfl
@[simp] theorem State.observe_condition (s : State) (w : List Host.Cell) : (s.observe w).condition = s.condition := rfl
@[simp] theorem State.observe_requests (s : State) (w : List Host.Cell) : (s.observe w).requests = s.requests := rfl
@[simp] theorem State.observe_engineReq (s : State) (w : List Host.Cell) : (s.observe w).engineReq = s.engineReq := rfl
@[simp] theorem State.observe_fairness (s : State) (w : List Host.Cell) : (s.observe w).fairness = s.fairness := rfl
@[simp] theorem State.observe_driven (s : State) (w : List Host.Cell) : (s.observe w).driven = s.driven := rfl
@[simp] theorem State.observe_lastLoad (s : State) (w : List Host.Cell) : (s.observe w).lastLoad = s.lastLoad := rfl
@[simp] theorem State.observe_chip (s : State) (w : List Host.Cell) :
    (s.observe w).chip = { s.chip with cells := Memory.observe (pageCount s.capacity * 64) s.chip.cells w } := rfl
@[simp] theorem State.observe_commit (s : State) (w : List Host.Cell) : (s.observe w).commit = s.commit := rfl
@[simp] theorem State.observe_writer (s : State) (w : List Host.Cell) : (s.observe w).writer = s.writer := rfl
@[simp] theorem State.observe_loader (s : State) (w : List Host.Cell) : (s.observe w).loader = s.loader := rfl
@[simp] theorem State.observe_remap (s : State) (w : List Host.Cell) : (s.observe w).remap = s.remap := rfl
@[simp] theorem State.observe_store (s : State) (w : List Host.Cell) : (s.observe w).store = s.store := rfl
@[simp] theorem State.observe_log (s : State) (w : List Host.Cell) : (s.observe w).log = s.log := rfl
@[simp] theorem State.observe_params (s : State) (w : List Host.Cell) : (s.observe w).params = s.params := rfl
@[simp] theorem State.observe_mgmt (s : State) (w : List Host.Cell) : (s.observe w).mgmt = s.mgmt := rfl

/-! ### modMgmt -/

@[simp] theorem State.modMgmt_pending (s : State) (f : MgmtPort → MgmtPort) : (s.modMgmt f).pending = s.pending := rfl
@[simp] theorem State.modMgmt_now (s : State) (f : MgmtPort → MgmtPort) : (s.modMgmt f).now = s.now := rfl
@[simp] theorem State.modMgmt_arrivals (s : State) (f : MgmtPort → MgmtPort) : (s.modMgmt f).arrivals = s.arrivals := rfl
@[simp] theorem State.modMgmt_resetN (s : State) (f : MgmtPort → MgmtPort) : (s.modMgmt f).resetN = s.resetN := rfl
@[simp] theorem State.modMgmt_capacity (s : State) (f : MgmtPort → MgmtPort) : (s.modMgmt f).capacity = s.capacity := rfl
@[simp] theorem State.modMgmt_addrStrap (s : State) (f : MgmtPort → MgmtPort) : (s.modMgmt f).addrStrap = s.addrStrap := rfl
@[simp] theorem State.modMgmt_flushSeen (s : State) (f : MgmtPort → MgmtPort) : (s.modMgmt f).flushSeen = s.flushSeen := rfl
@[simp] theorem State.modMgmt_pfw (s : State) (f : MgmtPort → MgmtPort) : (s.modMgmt f).pfw = s.pfw := rfl
@[simp] theorem State.modMgmt_slots (s : State) (f : MgmtPort → MgmtPort) : (s.modMgmt f).slots = s.slots := rfl
@[simp] theorem State.modMgmt_freeList (s : State) (f : MgmtPort → MgmtPort) : (s.modMgmt f).freeList = s.freeList := rfl
@[simp] theorem State.modMgmt_recency (s : State) (f : MgmtPort → MgmtPort) : (s.modMgmt f).recency = s.recency := rfl
@[simp] theorem State.modMgmt_ageList (s : State) (f : MgmtPort → MgmtPort) : (s.modMgmt f).ageList = s.ageList := rfl
@[simp] theorem State.modMgmt_pinned (s : State) (f : MgmtPort → MgmtPort) : (s.modMgmt f).pinned = s.pinned := rfl
@[simp] theorem State.modMgmt_queue (s : State) (f : MgmtPort → MgmtPort) : (s.modMgmt f).queue = s.queue := rfl
@[simp] theorem State.modMgmt_portA (s : State) (f : MgmtPort → MgmtPort) : (s.modMgmt f).portA = s.portA := rfl
@[simp] theorem State.modMgmt_portB (s : State) (f : MgmtPort → MgmtPort) : (s.modMgmt f).portB = s.portB := rfl
@[simp] theorem State.modMgmt_owner (s : State) (f : MgmtPort → MgmtPort) : (s.modMgmt f).owner = s.owner := rfl
@[simp] theorem State.modMgmt_reading (s : State) (f : MgmtPort → MgmtPort) : (s.modMgmt f).reading = s.reading := rfl
@[simp] theorem State.modMgmt_condition (s : State) (f : MgmtPort → MgmtPort) : (s.modMgmt f).condition = s.condition := rfl
@[simp] theorem State.modMgmt_requests (s : State) (f : MgmtPort → MgmtPort) : (s.modMgmt f).requests = s.requests := rfl
@[simp] theorem State.modMgmt_engineReq (s : State) (f : MgmtPort → MgmtPort) : (s.modMgmt f).engineReq = s.engineReq := rfl
@[simp] theorem State.modMgmt_fairness (s : State) (f : MgmtPort → MgmtPort) : (s.modMgmt f).fairness = s.fairness := rfl
@[simp] theorem State.modMgmt_driven (s : State) (f : MgmtPort → MgmtPort) : (s.modMgmt f).driven = s.driven := rfl
@[simp] theorem State.modMgmt_lastLoad (s : State) (f : MgmtPort → MgmtPort) : (s.modMgmt f).lastLoad = s.lastLoad := rfl
@[simp] theorem State.modMgmt_chip (s : State) (f : MgmtPort → MgmtPort) : (s.modMgmt f).chip = s.chip := rfl
@[simp] theorem State.modMgmt_commit (s : State) (f : MgmtPort → MgmtPort) : (s.modMgmt f).commit = s.commit := rfl
@[simp] theorem State.modMgmt_writer (s : State) (f : MgmtPort → MgmtPort) : (s.modMgmt f).writer = s.writer := rfl
@[simp] theorem State.modMgmt_loader (s : State) (f : MgmtPort → MgmtPort) : (s.modMgmt f).loader = s.loader := rfl
@[simp] theorem State.modMgmt_remap (s : State) (f : MgmtPort → MgmtPort) : (s.modMgmt f).remap = s.remap := rfl
@[simp] theorem State.modMgmt_store (s : State) (f : MgmtPort → MgmtPort) : (s.modMgmt f).store = s.store := rfl
@[simp] theorem State.modMgmt_log (s : State) (f : MgmtPort → MgmtPort) : (s.modMgmt f).log = s.log := rfl
@[simp] theorem State.modMgmt_params (s : State) (f : MgmtPort → MgmtPort) : (s.modMgmt f).params = s.params := rfl
@[simp] theorem State.modMgmt_mgmt (s : State) (f : MgmtPort → MgmtPort) : (s.modMgmt f).mgmt = f s.mgmt := rfl

/-! ### respond -/

@[simp] theorem State.respond_pending (s : State) (c : Byte) (r : Result) (l : List Byte) :
    (s.respond c r l).pending = s.pending := rfl
@[simp] theorem State.respond_now (s : State) (c : Byte) (r : Result) (l : List Byte) : (s.respond c r l).now = s.now := rfl
@[simp] theorem State.respond_arrivals (s : State) (c : Byte) (r : Result) (l : List Byte) :
    (s.respond c r l).arrivals = s.arrivals := rfl
@[simp] theorem State.respond_resetN (s : State) (c : Byte) (r : Result) (l : List Byte) :
    (s.respond c r l).resetN = s.resetN := rfl
@[simp] theorem State.respond_capacity (s : State) (c : Byte) (r : Result) (l : List Byte) :
    (s.respond c r l).capacity = s.capacity := rfl
@[simp] theorem State.respond_addrStrap (s : State) (c : Byte) (r : Result) (l : List Byte) :
    (s.respond c r l).addrStrap = s.addrStrap := rfl
@[simp] theorem State.respond_flushSeen (s : State) (c : Byte) (r : Result) (l : List Byte) :
    (s.respond c r l).flushSeen = s.flushSeen := rfl
@[simp] theorem State.respond_pfw (s : State) (c : Byte) (r : Result) (l : List Byte) : (s.respond c r l).pfw = s.pfw := rfl
@[simp] theorem State.respond_slots (s : State) (c : Byte) (r : Result) (l : List Byte) :
    (s.respond c r l).slots = s.slots := rfl
@[simp] theorem State.respond_freeList (s : State) (c : Byte) (r : Result) (l : List Byte) :
    (s.respond c r l).freeList = s.freeList := rfl
@[simp] theorem State.respond_recency (s : State) (c : Byte) (r : Result) (l : List Byte) :
    (s.respond c r l).recency = s.recency := rfl
@[simp] theorem State.respond_ageList (s : State) (c : Byte) (r : Result) (l : List Byte) :
    (s.respond c r l).ageList = s.ageList := rfl
@[simp] theorem State.respond_pinned (s : State) (c : Byte) (r : Result) (l : List Byte) :
    (s.respond c r l).pinned = s.pinned := rfl
@[simp] theorem State.respond_queue (s : State) (c : Byte) (r : Result) (l : List Byte) :
    (s.respond c r l).queue = s.queue := rfl
@[simp] theorem State.respond_portA (s : State) (c : Byte) (r : Result) (l : List Byte) :
    (s.respond c r l).portA = s.portA := rfl
@[simp] theorem State.respond_portB (s : State) (c : Byte) (r : Result) (l : List Byte) :
    (s.respond c r l).portB = s.portB := rfl
@[simp] theorem State.respond_owner (s : State) (c : Byte) (r : Result) (l : List Byte) :
    (s.respond c r l).owner = s.owner := rfl
@[simp] theorem State.respond_reading (s : State) (c : Byte) (r : Result) (l : List Byte) :
    (s.respond c r l).reading = s.reading := rfl
@[simp] theorem State.respond_condition (s : State) (c : Byte) (r : Result) (l : List Byte) :
    (s.respond c r l).condition = s.condition := rfl
@[simp] theorem State.respond_requests (s : State) (c : Byte) (r : Result) (l : List Byte) :
    (s.respond c r l).requests = s.requests := rfl
@[simp] theorem State.respond_engineReq (s : State) (c : Byte) (r : Result) (l : List Byte) :
    (s.respond c r l).engineReq = s.engineReq := rfl
@[simp] theorem State.respond_fairness (s : State) (c : Byte) (r : Result) (l : List Byte) :
    (s.respond c r l).fairness = s.fairness := rfl
@[simp] theorem State.respond_driven (s : State) (c : Byte) (r : Result) (l : List Byte) :
    (s.respond c r l).driven = s.driven := rfl
@[simp] theorem State.respond_lastLoad (s : State) (c : Byte) (r : Result) (l : List Byte) :
    (s.respond c r l).lastLoad = s.lastLoad := rfl
@[simp] theorem State.respond_chip (s : State) (c : Byte) (r : Result) (l : List Byte) : (s.respond c r l).chip = s.chip := rfl
@[simp] theorem State.respond_commit (s : State) (c : Byte) (r : Result) (l : List Byte) :
    (s.respond c r l).commit = s.commit := rfl
@[simp] theorem State.respond_writer (s : State) (c : Byte) (r : Result) (l : List Byte) :
    (s.respond c r l).writer = s.writer := rfl
@[simp] theorem State.respond_loader (s : State) (c : Byte) (r : Result) (l : List Byte) :
    (s.respond c r l).loader = s.loader := rfl
@[simp] theorem State.respond_remap (s : State) (c : Byte) (r : Result) (l : List Byte) :
    (s.respond c r l).remap = s.remap := rfl
@[simp] theorem State.respond_store (s : State) (c : Byte) (r : Result) (l : List Byte) :
    (s.respond c r l).store = s.store := rfl
@[simp] theorem State.respond_log (s : State) (c : Byte) (r : Result) (l : List Byte) : (s.respond c r l).log = s.log := rfl
@[simp] theorem State.respond_params (s : State) (c : Byte) (r : Result) (l : List Byte) :
    (s.respond c r l).params = s.params := rfl
@[simp] theorem State.respond_mgmt (s : State) (c : Byte) (r : Result) (l : List Byte) :
    (s.respond c r l).mgmt = { s.mgmt with response := r.code :: c :: l } := rfl

/-! ### beginHold -/

@[simp] theorem State.beginHold_pending (s : State) : (s.beginHold).pending = s.pending := rfl
@[simp] theorem State.beginHold_now (s : State) : (s.beginHold).now = s.now := rfl
@[simp] theorem State.beginHold_arrivals (s : State) : (s.beginHold).arrivals = s.arrivals := rfl
@[simp] theorem State.beginHold_resetN (s : State) : (s.beginHold).resetN = s.resetN := rfl
@[simp] theorem State.beginHold_capacity (s : State) : (s.beginHold).capacity = s.capacity := rfl
@[simp] theorem State.beginHold_addrStrap (s : State) : (s.beginHold).addrStrap = s.addrStrap := rfl
@[simp] theorem State.beginHold_flushSeen (s : State) : (s.beginHold).flushSeen = s.flushSeen := rfl
@[simp] theorem State.beginHold_pfw (s : State) : (s.beginHold).pfw = s.pfw := rfl
@[simp] theorem State.beginHold_slots (s : State) : (s.beginHold).slots = s.slots := rfl
@[simp] theorem State.beginHold_freeList (s : State) : (s.beginHold).freeList = s.freeList := rfl
@[simp] theorem State.beginHold_recency (s : State) : (s.beginHold).recency = s.recency := rfl
@[simp] theorem State.beginHold_ageList (s : State) : (s.beginHold).ageList = s.ageList := rfl
@[simp] theorem State.beginHold_pinned (s : State) : (s.beginHold).pinned = s.pinned := rfl
@[simp] theorem State.beginHold_queue (s : State) : (s.beginHold).queue = s.queue := rfl
@[simp] theorem State.beginHold_portA (s : State) : (s.beginHold).portA = s.portA := rfl
@[simp] theorem State.beginHold_portB (s : State) : (s.beginHold).portB = s.portB := rfl
@[simp] theorem State.beginHold_owner (s : State) : (s.beginHold).owner = s.owner := rfl
@[simp] theorem State.beginHold_reading (s : State) : (s.beginHold).reading = s.reading := rfl
@[simp] theorem State.beginHold_condition (s : State) : (s.beginHold).condition = s.condition := rfl
@[simp] theorem State.beginHold_requests (s : State) : (s.beginHold).requests = s.requests := rfl
@[simp] theorem State.beginHold_engineReq (s : State) : (s.beginHold).engineReq = s.engineReq := rfl
@[simp] theorem State.beginHold_fairness (s : State) : (s.beginHold).fairness = s.fairness := rfl
@[simp] theorem State.beginHold_driven (s : State) : (s.beginHold).driven = s.driven := rfl
@[simp] theorem State.beginHold_lastLoad (s : State) : (s.beginHold).lastLoad = s.lastLoad := rfl
@[simp] theorem State.beginHold_chip (s : State) : (s.beginHold).chip = s.chip := rfl
@[simp] theorem State.beginHold_commit (s : State) : (s.beginHold).commit = s.commit := rfl
@[simp] theorem State.beginHold_writer (s : State) : (s.beginHold).writer = s.writer := rfl
@[simp] theorem State.beginHold_loader (s : State) : (s.beginHold).loader = s.loader := rfl
@[simp] theorem State.beginHold_remap (s : State) : (s.beginHold).remap = s.remap := rfl
@[simp] theorem State.beginHold_store (s : State) :
    (s.beginHold).store = { s.store with phase := some .hold, holdDeadline := some (s.now + Config.hold) } := rfl
@[simp] theorem State.beginHold_log (s : State) : (s.beginHold).log = s.log := rfl
@[simp] theorem State.beginHold_params (s : State) : (s.beginHold).params = s.params := rfl
@[simp] theorem State.beginHold_mgmt (s : State) : (s.beginHold).mgmt = s.mgmt := rfl

/-! ### Reading a slot or a port after an update -/

theorem State.slot_setSlot (s : State) (i j : SlotIx) (x : Slot) : (s.setSlot i x).slot j = if i = j then x else s.slot j := by
  by_cases h : i = j
  · subst h
    simp [State.slot]
  · have h' : i.val ≠ j.val := fun e => h (Fin.ext e)
    simp [State.slot, h, h', Vector.getElem_set_ne]

@[simp] theorem State.slot_setSlot_same (s : State) (i : SlotIx) (x : Slot) : (s.setSlot i x).slot i = x := by
  simp [State.slot_setSlot]

theorem State.slot_setSlot_ne (s : State) {i j : SlotIx} (x : Slot) (h : i ≠ j) : (s.setSlot i x).slot j = s.slot j := by
  simp [State.slot_setSlot, h]

theorem State.slot_modSlot (s : State) (i j : SlotIx) (f : Slot → Slot) :
    (s.modSlot i f).slot j = if i = j then f (s.slot i) else s.slot j := State.slot_setSlot s i j _

@[simp] theorem State.slot_modSlot_same (s : State) (i : SlotIx) (f : Slot → Slot) : (s.modSlot i f).slot i = f (s.slot i) := by
  simp [State.slot_modSlot]

theorem State.slot_modSlot_ne (s : State) {i j : SlotIx} (f : Slot → Slot) (h : i ≠ j) : (s.modSlot i f).slot j = s.slot j := by
  simp [State.slot_modSlot, h]

@[simp] theorem State.slot_setPort (s : State) (p : PortId) (h : HostPort) (i : SlotIx) : (s.setPort p h).slot i = s.slot i := by
  cases p <;> rfl

@[simp] theorem State.slot_modPort (s : State) (p : PortId) (f : HostPort → HostPort) (i : SlotIx) :
    (s.modPort p f).slot i = s.slot i := by
  cases p <;> rfl

@[simp] theorem State.slot_tick (s : State) (t : Time) (i : SlotIx) : (s.tick t).slot i = s.slot i := rfl

@[simp] theorem State.slot_append (s : State) (k : FaultKind) (l p n : Option Nat) (d : Byte) (i : SlotIx) :
    (s.append k l p n d).slot i = s.slot i := rfl

@[simp] theorem State.slot_respond (s : State) (c : Byte) (r : Result) (l : List Byte) (i : SlotIx) :
    (s.respond c r l).slot i = s.slot i := rfl

@[simp] theorem State.slot_observe (s : State) (w : List Host.Cell) (i : SlotIx) : (s.observe w).slot i = s.slot i := rfl

@[simp] theorem State.port_setPort_same (s : State) (p : PortId) (h : HostPort) : (s.setPort p h).port p = h := by
  cases p <;> rfl

theorem State.port_setPort_ne (s : State) {p q : PortId} (h : HostPort) (ne : p ≠ q) : (s.setPort p h).port q = s.port q := by
  cases p <;> cases q <;> first | rfl | exact absurd rfl ne

@[simp] theorem State.port_modPort_same (s : State) (p : PortId) (f : HostPort → HostPort) :
    (s.modPort p f).port p = f (s.port p) := by
  cases p <;> rfl

theorem State.port_modPort_ne (s : State) {p q : PortId} (f : HostPort → HostPort) (ne : p ≠ q) :
    (s.modPort p f).port q = s.port q := State.port_setPort_ne s _ ne

@[simp] theorem State.port_setSlot (s : State) (i : SlotIx) (x : Slot) (p : PortId) : (s.setSlot i x).port p = s.port p := by
  cases p <;> rfl

@[simp] theorem State.port_modSlot (s : State) (i : SlotIx) (f : Slot → Slot) (p : PortId) : (s.modSlot i f).port p = s.port p := by
  cases p <;> rfl

@[simp] theorem State.port_tick (s : State) (t : Time) (p : PortId) : (s.tick t).port p = s.port p := by
  cases p <;> rfl

/-- Two slot stores with the same record at every index are the same. -/
theorem slots_ext {v w : Vector Slot 32} (h : ∀ i : SlotIx, v[i.val] = w[i.val]) : v = w :=
  Vector.ext fun k hk => h ⟨k, hk⟩

/-! ### The parts of a slot and of a port under their updates -/

@[simp] theorem Slot.become_state (x : Slot) (st : SlotState) : (x.become st).state = st := by cases st <;> rfl
@[simp] theorem Slot.become_page (x : Slot) (st : SlotState) : (x.become st).page = x.page := by cases st <;> rfl
@[simp] theorem Slot.become_image (x : Slot) (st : SlotState) : (x.become st).image = x.image := by cases st <;> rfl
@[simp] theorem Slot.become_present (x : Slot) (st : SlotState) : (x.become st).present = x.present := by cases st <;> rfl
@[simp] theorem Slot.become_dirty (x : Slot) (st : SlotState) : (x.become st).dirty = x.dirty := by cases st <;> rfl
@[simp] theorem Slot.become_dirtySince (x : Slot) (st : SlotState) :
    (x.become st).dirtySince = x.dirtySince := by cases st <;> rfl
@[simp] theorem Slot.become_settle (x : Slot) (st : SlotState) :
    (x.become st).settle = if st = .dirty then x.settle else none := by cases st <;> rfl
@[simp] theorem Slot.become_age (x : Slot) (st : SlotState) :
    (x.become st).age = if st = .dirty then x.age else none := by cases st <;> rfl
@[simp] theorem Slot.become_fillPending (x : Slot) (st : SlotState) :
    (x.become st).fillPending = x.fillPending := by cases st <;> rfl
@[simp] theorem Slot.become_waitA (x : Slot) (st : SlotState) : (x.become st).waitA = x.waitA := by cases st <;> rfl
@[simp] theorem Slot.become_waitB (x : Slot) (st : SlotState) : (x.become st).waitB = x.waitB := by cases st <;> rfl

@[simp] theorem Slot.setWait_state (x : Slot) (p : PortId) (w : Option OffsetSet) :
    (x.setWait p w).state = x.state := by cases p <;> rfl
@[simp] theorem Slot.setWait_page (x : Slot) (p : PortId) (w : Option OffsetSet) :
    (x.setWait p w).page = x.page := by cases p <;> rfl
@[simp] theorem Slot.setWait_image (x : Slot) (p : PortId) (w : Option OffsetSet) :
    (x.setWait p w).image = x.image := by cases p <;> rfl
@[simp] theorem Slot.setWait_present (x : Slot) (p : PortId) (w : Option OffsetSet) :
    (x.setWait p w).present = x.present := by cases p <;> rfl
@[simp] theorem Slot.setWait_dirty (x : Slot) (p : PortId) (w : Option OffsetSet) :
    (x.setWait p w).dirty = x.dirty := by cases p <;> rfl
@[simp] theorem Slot.setWait_dirtySince (x : Slot) (p : PortId) (w : Option OffsetSet) :
    (x.setWait p w).dirtySince = x.dirtySince := by cases p <;> rfl
@[simp] theorem Slot.setWait_settle (x : Slot) (p : PortId) (w : Option OffsetSet) :
    (x.setWait p w).settle = x.settle := by cases p <;> rfl
@[simp] theorem Slot.setWait_age (x : Slot) (p : PortId) (w : Option OffsetSet) :
    (x.setWait p w).age = x.age := by cases p <;> rfl
@[simp] theorem Slot.setWait_fillPending (x : Slot) (p : PortId) (w : Option OffsetSet) :
    (x.setWait p w).fillPending = x.fillPending := by cases p <;> rfl

@[simp] theorem Slot.wait_setWait_same (x : Slot) (p : PortId) (w : Option OffsetSet) : (x.setWait p w).wait p = w := by
  cases p <;> rfl

theorem Slot.wait_setWait_ne (x : Slot) {p q : PortId} (w : Option OffsetSet) (ne : p ≠ q) : (x.setWait p w).wait q = x.wait q := by
  cases p <;> cases q <;> first | rfl | exact absurd rfl ne

@[simp] theorem Slot.merge_state (x : Slot) (acc : Access) (now : Time) : (x.merge acc now).state = x.state := rfl
@[simp] theorem Slot.merge_page (x : Slot) (acc : Access) (now : Time) : (x.merge acc now).page = x.page := rfl
@[simp] theorem Slot.merge_image (x : Slot) (acc : Access) (now : Time) :
    (x.merge acc now).image = Page.put x.image acc.offset acc.bytes := rfl
@[simp] theorem Slot.merge_present (x : Slot) (acc : Access) (now : Time) :
    (x.merge acc now).present = x.present ||| acc.offsets := rfl
@[simp] theorem Slot.merge_dirty (x : Slot) (acc : Access) (now : Time) :
    (x.merge acc now).dirty = x.dirty ||| acc.offsets := rfl
@[simp] theorem Slot.merge_dirtySince (x : Slot) (acc : Access) (now : Time) :
    (x.merge acc now).dirtySince = if x.dirty = 0 then some now else x.dirtySince := rfl
@[simp] theorem Slot.merge_settle (x : Slot) (acc : Access) (now : Time) : (x.merge acc now).settle = x.settle := rfl
@[simp] theorem Slot.merge_age (x : Slot) (acc : Access) (now : Time) : (x.merge acc now).age = x.age := rfl
@[simp] theorem Slot.merge_fillPending (x : Slot) (acc : Access) (now : Time) :
    (x.merge acc now).fillPending = x.fillPending := rfl
@[simp] theorem Slot.merge_waitA (x : Slot) (acc : Access) (now : Time) : (x.merge acc now).waitA = x.waitA := rfl
@[simp] theorem Slot.merge_waitB (x : Slot) (acc : Access) (now : Time) : (x.merge acc now).waitB = x.waitB := rfl

@[simp] theorem Slot.addBack_state (x : Slot) (add : OffsetSet) (now : Time) : (x.addBack add now).state = x.state := rfl
@[simp] theorem Slot.addBack_page (x : Slot) (add : OffsetSet) (now : Time) : (x.addBack add now).page = x.page := rfl
@[simp] theorem Slot.addBack_image (x : Slot) (add : OffsetSet) (now : Time) : (x.addBack add now).image = x.image := rfl
@[simp] theorem Slot.addBack_present (x : Slot) (add : OffsetSet) (now : Time) : (x.addBack add now).present = x.present := rfl
@[simp] theorem Slot.addBack_dirty (x : Slot) (add : OffsetSet) (now : Time) :
    (x.addBack add now).dirty = x.dirty ||| add := rfl
@[simp] theorem Slot.addBack_dirtySince (x : Slot) (add : OffsetSet) (now : Time) :
    (x.addBack add now).dirtySince = if x.dirty = 0 then some now else x.dirtySince := rfl
@[simp] theorem Slot.addBack_settle (x : Slot) (add : OffsetSet) (now : Time) : (x.addBack add now).settle = x.settle := rfl
@[simp] theorem Slot.addBack_age (x : Slot) (add : OffsetSet) (now : Time) : (x.addBack add now).age = x.age := rfl
@[simp] theorem Slot.addBack_fillPending (x : Slot) (add : OffsetSet) (now : Time) :
    (x.addBack add now).fillPending = x.fillPending := rfl
@[simp] theorem Slot.addBack_waitA (x : Slot) (add : OffsetSet) (now : Time) : (x.addBack add now).waitA = x.waitA := rfl
@[simp] theorem Slot.addBack_waitB (x : Slot) (add : OffsetSet) (now : Time) : (x.addBack add now).waitB = x.waitB := rfl

@[simp] theorem Slot.clearDeadlines_state (x : Slot) : (x.clearDeadlines).state = x.state := rfl
@[simp] theorem Slot.clearDeadlines_page (x : Slot) : (x.clearDeadlines).page = x.page := rfl
@[simp] theorem Slot.clearDeadlines_image (x : Slot) : (x.clearDeadlines).image = x.image := rfl
@[simp] theorem Slot.clearDeadlines_present (x : Slot) : (x.clearDeadlines).present = x.present := rfl
@[simp] theorem Slot.clearDeadlines_dirty (x : Slot) : (x.clearDeadlines).dirty = x.dirty := rfl
@[simp] theorem Slot.clearDeadlines_dirtySince (x : Slot) : (x.clearDeadlines).dirtySince = x.dirtySince := rfl
@[simp] theorem Slot.clearDeadlines_settle (x : Slot) : (x.clearDeadlines).settle = none := rfl
@[simp] theorem Slot.clearDeadlines_age (x : Slot) : (x.clearDeadlines).age = none := rfl
@[simp] theorem Slot.clearDeadlines_fillPending (x : Slot) : (x.clearDeadlines).fillPending = x.fillPending := rfl
@[simp] theorem Slot.clearDeadlines_waitA (x : Slot) : (x.clearDeadlines).waitA = x.waitA := rfl
@[simp] theorem Slot.clearDeadlines_waitB (x : Slot) : (x.clearDeadlines).waitB = x.waitB := rfl

@[simp] theorem HostPort.present_state (h : HostPort) (now : Time) (r : Reason) (rd : BitVec 32) :
    (h.present now r rd).state = .idle := rfl
@[simp] theorem HostPort.present_access (h : HostPort) (now : Time) (r : Reason) (rd : BitVec 32) :
    (h.present now r rd).access = none := rfl
@[simp] theorem HostPort.present_stall (h : HostPort) (now : Time) (r : Reason) (rd : BitVec 32) :
    (h.present now r rd).stall = none := rfl
@[simp] theorem HostPort.present_waited (h : HostPort) (now : Time) (r : Reason) (rd : BitVec 32) :
    (h.present now r rd).waited = none := rfl
@[simp] theorem HostPort.present_lastError (h : HostPort) (now : Time) (r : Reason) (rd : BitVec 32) :
    (h.present now r rd).lastError = h.lastError := rfl
@[simp] theorem HostPort.present_req (h : HostPort) (now : Time) (r : Reason) (rd : BitVec 32) :
    (h.present now r rd).req = h.req := rfl
@[simp] theorem HostPort.present_reqSpent (h : HostPort) (now : Time) (r : Reason) (rd : BitVec 32) :
    (h.present now r rd).reqSpent = h.reqSpent := rfl
@[simp] theorem HostPort.present_rdy (h : HostPort) (now : Time) (r : Reason) (rd : BitVec 32) :
    (h.present now r rd).rdy = true := rfl
@[simp] theorem HostPort.present_err (h : HostPort) (now : Time) (r : Reason) (rd : BitVec 32) :
    (h.present now r rd).err = decide (r ≠ .none) := rfl
@[simp] theorem HostPort.present_errcode (h : HostPort) (now : Time) (r : Reason) (rd : BitVec 32) :
    (h.present now r rd).errcode = BitVec.ofNat 3 r.code := rfl
@[simp] theorem HostPort.present_rd (h : HostPort) (now : Time) (r : Reason) (rd : BitVec 32) :
    (h.present now r rd).rd = if r = .none then rd else 0 := rfl
@[simp] theorem HostPort.present_pulseEnd (h : HostPort) (now : Time) (r : Reason) (rd : BitVec 32) :
    (h.present now r rd).pulseEnd = if h.req then none else some (now + Config.rdyPulse) := rfl

@[simp] theorem HostPort.withdraw_state (h : HostPort) : (h.withdraw).state = h.state := rfl
@[simp] theorem HostPort.withdraw_access (h : HostPort) : (h.withdraw).access = h.access := rfl
@[simp] theorem HostPort.withdraw_stall (h : HostPort) : (h.withdraw).stall = h.stall := rfl
@[simp] theorem HostPort.withdraw_waited (h : HostPort) : (h.withdraw).waited = h.waited := rfl
@[simp] theorem HostPort.withdraw_lastError (h : HostPort) : (h.withdraw).lastError = h.lastError := rfl
@[simp] theorem HostPort.withdraw_req (h : HostPort) : (h.withdraw).req = h.req := rfl
@[simp] theorem HostPort.withdraw_reqSpent (h : HostPort) : (h.withdraw).reqSpent = h.reqSpent := rfl
@[simp] theorem HostPort.withdraw_rdy (h : HostPort) : (h.withdraw).rdy = false := rfl
@[simp] theorem HostPort.withdraw_err (h : HostPort) : (h.withdraw).err = false := rfl
@[simp] theorem HostPort.withdraw_errcode (h : HostPort) : (h.withdraw).errcode = 0 := rfl
@[simp] theorem HostPort.withdraw_rd (h : HostPort) : (h.withdraw).rd = 0 := rfl
@[simp] theorem HostPort.withdraw_pulseEnd (h : HostPort) : (h.withdraw).pulseEnd = none := rfl

end Sys2Proof.Machine
end

