-- ==== Sys2Proof/Laws/Sealing.lean ====
section
/-! SUPPORT. Seals: one seal, a list of seals, and the seals that a named slot, a flush, the high-water check and a full page
cause, each as the state with a list of slots sealed. -/

namespace Sys2Proof.Machine

/-- Sealing no slot changes nothing. -/
theorem State.sealedTo_nil (s : State) : s.sealedTo [] = s := by
  have h : (Vector.ofFn fun i : Fin 32 => s.slot i) = s.slots := slots_ext fun i => by simp [State.slot]
  have a : (s.ageList.filter fun j => j ∉ ([] : List SlotIx)) = s.ageList := List.filter_eq_self.2 (by simp)
  unfold State.sealedTo
  rw [a, List.append_nil]
  simp only [List.not_mem_nil, if_false, h]

@[simp] theorem State.slot_sealedTo (s : State) (l : List SlotIx) (j : SlotIx) :
    (s.sealedTo l).slot j = if j ∈ l then { s.slot j with state := .sealed, settle := none, age := none } else s.slot j := by
  simp [State.slot, State.sealedTo]

/-- A DIRTY slot leaves the age list. -/
theorem State.leave_dirty (s : State) {i : SlotIx} (h : (s.slot i).state = .dirty) :
    s.leave i = { s with ageList := s.ageList.erase i } := by
  unfold State.leave
  rw [h]

/-- One seal of a DIRTY slot. -/
theorem State.sealOne_dirty (s : State) {i : SlotIx} (h : (s.slot i).state = .dirty) :
    s.sealOne i = { s with slots := s.slots.set i.val { s.slot i with state := .sealed, settle := none, age := none }
                           ageList := s.ageList.erase i, queue := s.queue ++ [i] } := by
  rw [State.sealOne, if_pos h, State.moveTo, State.leave_dirty s h]
  rfl

/-- A seal asked of a slot that is not DIRTY changes nothing. -/
theorem State.sealOne_other (s : State) {i : SlotIx} (h : (s.slot i).state ≠ .dirty) : s.sealOne i = s := by
  simp [State.sealOne, h]

/-- A slot of which no seal is asked stays as it is. -/
theorem State.slot_sealOne_ne (s : State) {i j : SlotIx} (h : i ≠ j) : (s.sealOne i).slot j = s.slot j := by
  by_cases hd : (s.slot i).state = .dirty
  · rw [State.sealOne_dirty s hd]
    exact State.slot_setSlot_ne s _ h
  · rw [State.sealOne_other s hd]

/-- One seal and then a list of seals are the seals of the longer list. -/
theorem State.sealedTo_cons (s : State) {i : SlotIx} {rest : List SlotIx} (hd : (s.slot i).state = .dirty)
    (hn : s.ageList.Nodup) (hi : i ∉ rest) : (s.sealOne i).sealedTo rest = s.sealedTo (i :: rest) := by
  have hs : (s.sealOne i).slot i = { s.slot i with state := .sealed, settle := none, age := none } := by
    rw [State.sealOne_dirty s hd]
    exact State.slot_setSlot_same s i _
  have slots : (Vector.ofFn fun j : Fin 32 => if j ∈ rest then
      { (s.sealOne i).slot j with state := SlotState.sealed, settle := none, age := none } else (s.sealOne i).slot j) =
      Vector.ofFn fun j : Fin 32 => if j ∈ i :: rest then
        { s.slot j with state := SlotState.sealed, settle := none, age := none } else s.slot j := by
    refine slots_ext fun j => ?_
    simp only [Vector.getElem_ofFn, Fin.eta]
    by_cases h : i = j
    · subst h
      simp [hi, hs]
    · have h' : ¬j = i := fun e => h e.symm
      simp [State.slot_sealOne_ne s h, h']
  have age : ((s.sealOne i).ageList.filter fun j => j ∉ rest) = s.ageList.filter fun j => j ∉ i :: rest := by
    rw [State.sealOne_dirty s hd]
    simp only
    rw [hn.erase_eq_filter, List.filter_filter]
    refine List.filter_congr fun j _ => ?_
    by_cases h : j = i <;> simp [h]
  have queue : (s.sealOne i).queue ++ rest = s.queue ++ i :: rest := by
    rw [State.sealOne_dirty s hd]
    simp
  unfold State.sealedTo
  rw [slots, age, queue, State.sealOne_dirty s hd]

/-- A list of DIRTY slots sealed one after the other. -/
theorem State.foldl_sealOne (l : List SlotIx) (s : State) (hl : l.Nodup) (hn : s.ageList.Nodup)
    (hd : ∀ i ∈ l, (s.slot i).state = .dirty) : l.foldl State.sealOne s = s.sealedTo l := by
  induction l generalizing s with
  | nil => exact (State.sealedTo_nil s).symm
  | cons i rest ih =>
    obtain ⟨hi, hr⟩ := List.nodup_cons.1 hl
    have hs := hd i List.mem_cons_self
    have hage : (s.sealOne i).ageList.Nodup := by
      rw [State.sealOne_dirty s hs]
      exact hn.erase i
    have hrest : ∀ j ∈ rest, ((s.sealOne i).slot j).state = .dirty := fun j hj => by
      rw [State.slot_sealOne_ne s (fun e : i = j => hi (by rw [e]; exact hj))]
      exact hd j (List.mem_cons_of_mem i hj)
    rw [List.foldl_cons, ih (s.sealOne i) hr hage hrest, State.sealedTo_cons s hs hn hi]

/-- A flush seals the age list. -/
theorem State.sealAll_eq (s : State) (h : s.holds s.ageList .dirty) : s.sealAll = s.sealedTo s.ageList :=
  State.foldl_sealOne _ _ h.1 h.1 fun i hi => (h.2 i).1 hi

/-- The seal of a DIRTY slot, with the slots ahead of it in ORDER AGED. -/
theorem State.sealNamed_eq (s : State) {i : SlotIx} (h : s.holds s.ageList .dirty) (hi : (s.slot i).state = .dirty) :
    s.sealNamed i = s.sealedTo (s.sealsFor i) := by
  have one : ∀ j ∈ s.ageList, (s.slot j).state = .dirty := fun j hj => (h.2 j).1 hj
  by_cases ha : s.params.aged = true
  · have sub : List.Sublist (s.ageList.takeWhile fun j => j ≠ i) s.ageList := List.takeWhile_sublist _
    have hnot : i ∉ s.ageList.takeWhile fun j => j ≠ i := by
      generalize s.ageList = l
      induction l with
      | nil => simp
      | cons j rest ih =>
        by_cases e : j = i
        · simp [e]
        · have e' : ¬i = j := fun x => e x.symm
          simpa [e, e'] using ih
    have nodup : ((s.ageList.takeWhile fun j => j ≠ i) ++ [i]).Nodup := by
      rw [List.nodup_append]
      refine ⟨h.1.sublist sub, by simp, ?_⟩
      intro a ha b hb hab
      rw [List.mem_singleton.1 hb] at hab
      exact hnot (hab ▸ ha)
    rw [State.sealNamed, if_pos hi, if_pos ha, State.sealsFor, if_pos ha, ← State.foldl_sealOne _ _ nodup h.1]
    · simp
    · intro j hj
      rcases List.mem_append.1 hj with hj | hj
      · exact one j (sub.subset hj)
      · rw [List.mem_singleton.1 hj]
        exact hi
  · rw [State.sealNamed, if_pos hi, if_neg ha, State.sealsFor, if_neg ha, ← State.foldl_sealOne _ _ (by simp) h.1]
    · rfl
    · simpa using hi

/-- The seal of a slot that is not DIRTY. -/
theorem State.sealNamed_other (s : State) {i : SlotIx} (hi : (s.slot i).state ≠ .dirty) : s.sealNamed i = s := by
  simp [State.sealNamed, hi]

/-- The store is in one of the states in which commits start. -/
theorem State.committable_iff (s : State) : s.committable = true ↔ s.works := by
  unfold State.committable State.works
  cases s.store.state <;> simp

/-- The high-water seal. -/
theorem State.highWater_eq (s : State) (h : s.holds s.ageList .dirty) : s.highWater = s.sealedTo s.overflow := by
  unfold State.highWater State.overflow
  by_cases hw : s.works
  · rw [if_pos ((State.committable_iff s).2 hw), if_pos hw]
    refine State.foldl_sealOne _ _ (h.1.sublist (List.take_sublist _ _)) h.1 fun i hi => ?_
    exact (h.2 i).1 ((List.take_sublist _ _).subset hi)
  · rw [if_neg (fun c => hw ((State.committable_iff s).1 c)), if_neg hw, State.sealedTo_nil]

end Sys2Proof.Machine
end

