-- ==== Sys2Proof/Laws/Slots.lean ====
section
/-! SUPPORT. What the lookup and the allocation find, what an answer makes of a port, what a change of state does to the
collections, and what the fault log's append gives. -/

namespace Sys2Proof.Machine

/-! ### Lookup and allocation -/

theorem mem_allSlots (i : SlotIx) : i ∈ allSlots := by
  revert i
  decide

/-- What the lookup finds carries the page. -/
theorem State.lookup_carries {s : State} {page : Nat} {i : SlotIx} (h : s.lookup page = some i) : s.carries i page := by
  have hp := List.find?_some h
  simpa [State.carries] using hp

/-- The lookup finds nothing exactly when no slot carries the page. -/
theorem State.lookup_none_iff (s : State) (page : Nat) : s.lookup page = none ↔ s.uncarried page := by
  unfold State.lookup State.uncarried State.carries
  rw [List.find?_eq_none]
  constructor
  · intro h j hj
    have := h j (mem_allSlots j)
    simp [hj.1, hj.2] at this
  · intro h j _
    simpa using fun h1 h2 => h j ⟨h1, h2⟩

/-- The lookup finds the one slot that carries the page. -/
theorem State.lookup_of_soleCarrier {s : State} {page : Nat} {i : SlotIx} (h : s.soleCarrier i page) :
    s.lookup page = some i := by
  cases hl : s.lookup page with
  | none => exact absurd h.1 ((State.lookup_none_iff s page).1 hl i)
  | some j => rw [h.2 j (State.lookup_carries hl)]

/-- A slot can be evicted exactly when it is idle. -/
theorem State.evictable_iff (s : State) (i : SlotIx) : s.evictable i = true ↔ (s.slot i).idle := by
  simp [State.evictable, Slot.unwaited, Slot.idle]

/-- The first member of a list that meets a test, the members ahead of it failing it. -/
theorem find?_of_first {α : Type} [DecidableEq α] {f : α → Bool} {l : List α} {a : α} (ha : a ∈ l) (hf : f a = true)
    (hb : ∀ b ∈ l.takeWhile (fun b => b ≠ a), f b = false) : l.find? f = some a := by
  induction l with
  | nil => cases ha
  | cons b rest ih =>
    by_cases hba : b = a
    · subst hba
      simp [hf]
    · have hfb : f b = false := hb b (by simp [hba])
      rw [List.find?_cons, hfb]
      refine ih ?_ fun c hc => hb c ?_
      · rcases List.mem_cons.1 ha with h | h
        · exact absurd h.symm hba
        · exact h
      · rw [List.takeWhile_cons]
        simpa [hba] using Or.inr hc

/-- The allocation takes the slot its rule names. -/
theorem State.allocatable_of_takes {s : State} {i : SlotIx} (h : s.takes i) : s.allocatable = some i := by
  unfold State.allocatable
  rcases h with h | ⟨hf, hi, hm, hb⟩
  · cases hl : s.freeList with
    | nil => simp [hl] at h
    | cons j rest =>
      simp only [hl, List.head?_cons] at h
      simp only [h]
  · rw [hf]
    refine find?_of_first hm ((State.evictable_iff s i).2 hi) fun j hj => ?_
    have hn := hb j hj
    cases hev : s.evictable j with
    | false => rfl
    | true => exact absurd ((State.evictable_iff s j).1 hev) hn

/-- Nothing can be allocated exactly when the free list is empty and every slot of the recency list is in use. -/
theorem State.allocatable_none_iff (s : State) : s.allocatable = none ↔ s.noneAllocatable := by
  unfold State.allocatable State.noneAllocatable
  cases hl : s.freeList with
  | nil =>
    simp only [List.find?_eq_none, true_and]
    exact forall₂_congr fun j _ => not_congr (State.evictable_iff s j)
  | cons j rest => simp

/-! ### Changes of state -/

/-- What a slot's record is after a change of its state. -/
@[simp] theorem State.slot_moveTo_same (s : State) (i : SlotIx) (st : SlotState) :
    (s.moveTo i st).slot i = (s.slot i).become st := by
  have hl : (s.leave i).slot i = s.slot i := by
    unfold State.leave
    cases (s.slot i).state <;> rfl
  have hj : ∀ m : State, (m.join i st).slot i = m.slot i := fun m => by cases st <;> rfl
  rw [State.moveTo, hj, State.slot_modSlot_same, hl]

/-- No other slot's record changes with it. -/
theorem State.slot_moveTo_ne (s : State) {i j : SlotIx} (st : SlotState) (h : i ≠ j) : (s.moveTo i st).slot j = s.slot j := by
  have hl : (s.leave i).slot j = s.slot j := by
    unfold State.leave
    cases (s.slot i).state <;> rfl
  have hj : ∀ m : State, (m.join i st).slot j = m.slot j := fun m => by cases st <;> rfl
  rw [State.moveTo, hj, State.slot_modSlot_ne _ _ h, hl]

/-- A released slot carries nothing. -/
theorem State.slot_freeSlot_same (s : State) (i : SlotIx) : (s.freeSlot i).slot i = (s.slot i).emptied := by
  rw [State.freeSlot, State.slot_modSlot_same, State.slot_moveTo_same]
  rfl

/-- An allocated slot is CLEAN and empty, with the page. -/
theorem State.slot_allocate_same (s : State) (i : SlotIx) (page : Nat) :
    (s.allocate i page).slot i = { (s.slot i).emptied with state := .clean, page := some page } := by
  rw [State.allocate, State.slot_modSlot_same, State.slot_moveTo_same]
  rfl

theorem mem_insertAscending {i j : SlotIx} {l : List SlotIx} : j ∈ insertAscending i l ↔ j = i ∨ j ∈ l := by
  induction l with
  | nil => simp [insertAscending]
  | cons k rest ih =>
    unfold insertAscending
    split
    · simp
    · simp only [List.mem_cons, ih]
      exact or_left_comm

theorem State.mem_insertByAge {s : State} {i j : SlotIx} {l : List SlotIx} : j ∈ s.insertByAge i l ↔ j = i ∨ j ∈ l := by
  induction l with
  | nil => simp [State.insertByAge]
  | cons k rest ih =>
    unfold State.insertByAge
    split
    · simp
    · simp only [List.mem_cons, ih]
      exact or_left_comm

/-! ### Answers -/

/-- A port with an answer presented, in the statements' words. -/
theorem HostPort.present_eq (h : HostPort) (now : Time) (reason : Reason) (rd : BitVec 32) :
    h.present now reason rd = h.answering now reason (if reason = .none then rd else 0) h.lastError := rfl

/-- An error response to an outstanding access, in the statements' words. -/
theorem State.answerError_eq (s : State) {p : PortId} {acc : Access} (reason : Reason) (detail : Detail)
    (h : (s.port p).access = some acc) :
    s.answerError p reason detail = s.setPort p (((s.port p).recordError acc reason detail).present s.now reason 0) := by
  simp [State.answerError, State.modPort, h]

/-- Without an outstanding access no error response is given. -/
theorem State.answerError_idle (s : State) {p : PortId} (reason : Reason) (detail : Detail) (h : (s.port p).access = none) :
    s.answerError p reason detail = s := by
  cases p <;> simp_all [State.answerError, State.modPort, State.port, State.setPort]

/-! ### The fault log -/

/-- The record that an append makes. -/
def FaultLog.entry (l : FaultLog) (kind : FaultKind) (logical physical count : Option Nat) (detail : Byte) : FaultRecord :=
  { sequence := l.next, kind, logical, physical, count, detail, read := false }

/-- An append to a log that is not full. -/
theorem FaultLog.append_room (l : FaultLog) (kind : FaultKind) (a b n : Option Nat) (d : Byte) (h : l.records.length < 16) :
    l.append kind a b n d =
      { records := l.records ++ [l.entry kind a b n d], next := l.next + 1, unread := l.unread + 1 } := by
  unfold FaultLog.append
  cases hr : l.records with
  | nil => simp [FaultLog.entry]
  | cons q rest =>
    have : (q :: rest).length < 16 := hr ▸ h
    simp only [this, if_true]
    rfl

/-- An append to a full log: its head is lost. -/
theorem FaultLog.append_full (l : FaultLog) (kind : FaultKind) (a b n : Option Nat) (d : Byte) {q : FaultRecord}
    {rest : List FaultRecord} (hr : l.records = q :: rest) (h : 16 ≤ l.records.length) :
    l.append kind a b n d =
      { records := rest ++ [l.entry kind a b n d], next := l.next + 1,
        unread := if q.read then l.unread + 1 else l.unread + 1 - 1 } := by
  have : ¬(q :: rest).length < 16 := by rw [← hr]; omega
  unfold FaultLog.append
  rw [hr]
  simp only [this, if_false]
  rfl

/-- An append keeps the log within 16 records. -/
theorem FaultLog.append_length (l : FaultLog) (kind : FaultKind) (a b n : Option Nat) (d : Byte) (h : l.records.length ≤ 16) :
    (l.append kind a b n d).records.length ≤ 16 := by
  by_cases hl : l.records.length < 16
  · rw [FaultLog.append_room l kind a b n d hl]
    simp
    omega
  · cases hr : l.records with
    | nil => simp [hr] at hl
    | cons q rest =>
      rw [FaultLog.append_full l kind a b n d hr (by omega)]
      rw [hr] at h
      simpa using h

end Sys2Proof.Machine
end

