-- ==== Sys2Proof/WellFormed.lean ====
section
/-! DEFINITION. Which commands are well formed: the operand checks that the types do not make. -/

namespace Sys2Proof

/-- The byte addresses the array can have: the largest array, capacity code 3, has 2048 pages of 64 bytes (0.4). -/
def arrayAddresses : Nat := 131072

/-- The observed bytes of an event are listed by rising address, each once, inside the largest array. -/
def wornOk : List Host.Cell → Bool
  | [] => true
  | [c] => decide (c.1 < arrayAddresses)
  | c :: d :: rest => decide (c.1 < d.1) && wornOk (d :: rest)

/-- The fourteen command codes of 11.1 are 01h to 0Eh. -/
def isCommandCode (code : Byte) : Bool := decide (1 ≤ code.toNat) && decide (code.toNat ≤ 14)

/-- The operand checks: observed bytes in form, and an unknown command's code naming no command (R173). -/
def Instr.wellFormed : Instr → Bool
  | .fillCompletion _ worn => wornOk worn
  | .bypassCompletion _ worn => wornOk worn
  | .pollRead _ _ worn => wornOk worn
  | .verifyComplete _ worn => wornOk worn
  | .retireBackfillComplete _ worn => wornOk worn
  | .mapLoadEnd _ worn => wornOk worn
  | .unknownCommand _ code _ => !isCommandCode code
  | .accessArrival _ _ _ _ _ _ => true
  | .reqRemoved _ _ => true
  | .rdyPulseEnd _ _ => true
  | .stallExpiry _ _ => true
  | .settleExpiry _ _ => true
  | .ageExpiry _ _ => true
  | .flushRisingEdge _ => true
  | .pfwAssertionEdge _ => true
  | .pfwDeassertionEdge _ => true
  | .pageLoad _ => true
  | .lapseEnd _ => true
  | .pollDeadlineExpiry _ => true
  | .holdBegin _ => true
  | .holdEnd _ => true
  | .resetNFall _ => true
  | .resetNRise _ _ _ _ _ => true
  | .startCondition _ => true
  | .stopCondition _ => true
  | .misplacedCondition _ _ => true
  | .addressByte _ _ => true
  | .dataByte _ _ => true
  | .responseByte _ _ => true
  | .generalCallByte _ _ => true
  | .generalCallFlush _ => true
  | .status _ _ => true
  | .configGet _ _ => true
  | .configSet _ _ => true
  | .flush _ _ => true
  | .quiesce _ _ => true
  | .resume _ _ => true
  | .restart _ _ => true
  | .logRead _ _ => true
  | .slotRead _ _ => true
  | .mapRead _ _ => true
  | .portError _ _ => true
  | .retry _ _ => true
  | .discard _ _ => true
  | .mapFormat _ _ => true
  | .flushFallingEdge _ => true

end Sys2Proof
end

