-- ==== Sys2Proof/Tests/Slice0.lean ====
section
/-! SUPPORT. Tests: the refusals of `wellFormed`; one small step for each command, its expected result taken from the manual; and,
for every statement with hypotheses, a state and operands that meet them, clause by clause. -/

namespace Sys2Proof.Tests

open Sys2Proof.Machine

/-! ### Small states -/

/-- A part of observations of the next state. -/
def after {α : Type} (o : Host.Outcome State Fault Refusal) (f : State → α) : Option α :=
  match o with
  | .next u => some (f u)
  | _ => none

/-- RUNNING with every slot FREE, both map copies blank, nothing in progress. -/
def running : State :=
  { State.reset with
      condition := .idle, remap := { live := [], dead := 0, copy := some 0, sequence := some 0 }
      store := { state := .running, cause := none, origin := none, phase := none, holdDeadline := none, quiet := 0 } }

/-- DEGRADED with a cause. -/
def degraded (cause : Cause) : State := { running with store := { running.store with state := .degraded, cause := some cause } }

/-- A FREE slot given a state, a page and its sets, and put in the collection of the state; dirty since moment 0. -/
def put (s : State) (i : SlotIx) (st : SlotState) (page : Nat) (present dirty : OffsetSet) : State :=
  { s with
      freeList := s.freeList.erase i
      slots := s.slots.set i.val
        { Slot.reset with state := st, page := some page, present, dirty, dirtySince := if dirty = 0 then none else some 0 }
      recency := if st = .clean then s.recency ++ [i] else s.recency
      ageList := if st = .dirty then s.ageList ++ [i] else s.ageList
      queue := if st = .sealed then s.queue ++ [i] else s.queue
      pinned := if st = .pinned then s.pinned ++ [i] else s.pinned }

/-- A read and a write of the word at 0320h: page 12, offsets 32 to 35. -/
def acc0 : Access := { write := false, addr := 0x320, size := 2, data := 0, arrival := 0, order := 0 }

/-- See `acc0`. -/
def write0 : Access := { acc0 with write := true, data := 0x44332211 }

/-- A port put in a wait state with a stall deadline of 100, with its request, or waiting on a slot with its fill. -/
def wait (s : State) (p : PortId) (st : PortState) (acc : Access) (w : Option SlotIx) : State :=
  let m := s.setPort p
    { HostPort.reset with state := st, access := some acc, stall := some 100, waited := w, req := true, reqSpent := true }
  match w with
  | some i =>
    { m.modSlot i (fun x => { x.setWait p (some acc.offsets) with fillPending := some (~~~x.present) }) with
        requests := s.requests ++ [.fill i] }
  | none => if st = .waitBypass then { m with requests := s.requests ++ [.bypass p] } else m

/-- Every slot SEALED, pages 100 to 131: nothing to allocate. -/
def packed : State :=
  { running with
      freeList := [], queue := allSlots
      slots := Vector.ofFn fun i : Fin 32 =>
        { Slot.reset with state := .sealed, page := some (100 + i.val), present := 1, dirty := 1, dirtySince := some 0 } }

/-- Nothing FREE, slot 5 CLEAN with a fill pending, slot 7 CLEAN and idle behind it. -/
def reused : State :=
  { packed with
      recency := [5, 7], queue := allSlots.filter fun i => i ≠ 5 ∧ i ≠ 7
      slots := (packed.slots.set 5 { Slot.reset with state := .clean, page := some 20, fillPending := some fullSet }).set 7
        { Slot.reset with state := .clean, page := some 21, present := 1 } }

/-- Every slot SEALED but slot 0, which is PINNED; port A waits on it, port B with an earlier write for a slot. -/
def packedPinned : State :=
  let s := { packed with queue := packed.queue.erase 0, pinned := [0]
                         slots := packed.slots.set 0 { packed.slot 0 with state := .pinned } }
  wait (wait s .a .waitFill { acc0 with addr := 0x1900, order := 1 } (some 0)) .b .waitSlot write0 none

/-- An answer presented at port A while REQ is held. -/
def answered : State := { running with portA := { HostPort.reset with req := true, reqSpent := true, rdy := true } }

/-- A map load in flight, no byte read. -/
def loading : State :=
  { State.reset with
      store := { State.reset.store with phase := some .mapLoad, holdDeadline := none }, condition := .idle, owner := .mapLoader
      loader := some { copy0 := [], copy1 := [] } }

/-- The remap table of 12.2. -/
def table0 : Remap :=
  { live := [{ page := 17, spare := 3 }, { page := 90, spare := 2 }], dead := 3, copy := some 1, sequence := some 8 }

/-- An unread fault record. -/
def record0 : FaultRecord :=
  { sequence := 1, kind := .recovered, logical := some 12, physical := some 12, count := some 1, detail := 1, read := false }

/-- An attempt on physical page 12 that loads 00h at offsets 0 to 2, in a step. -/
def attempt0 (step : AttemptStep) : Attempt :=
  { target := 12, loadSet := 7, bytes := zeroPage, number := 1, failing := none, firstFailing := none, toLoad := [1, 2],
    pollByte := some (2, 0), pollDeadline := some 160000, step }

/-- The commit record of slot 4, page 12. -/
def record (a : Attempt) (phase : CommitPhase) : CommitRecord :=
  { slot := 4, page := 12, phase, attempt := a, backfill := 0, homeFailing := 0, spare := none, tentative := none, newlyDead := [] }

/-- Slot 4 COMMITTING. -/
def committing (phase : CommitPhase) (a : Attempt) : State :=
  { put running 4 .committing 12 7 0 with commit := some (record a phase), owner := .engine }

/-- A map write of a retirement. -/
def writer0 (a : Attempt) : MapWriter := { purpose := .retire, copy := 0, sequence := some 1, attempt := a }

/-- Slot 4 COMMITTING in MAP_WRITE. -/
def mapWriting (a : Attempt) : State := { committing .mapWrite a with writer := some (writer0 a) }

/-- A commit in RETIRE_BACKFILL, offset 2 having failed. -/
def backfilling : CommitRecord := { record (attempt0 .verify) .retireBackfill with backfill := ~~~7, homeFailing := 4 }

/-- A commit in SPARE_LOAD on spare 4. -/
def spareRecord : CommitRecord := { record (attempt0 .verify) .spareLoad with spare := some 4, homeFailing := 2 }

/-- A format holding the array. -/
def formatting : State :=
  { degraded .mapInvalid with
      writer := some { writer0 (attempt0 .load) with purpose := .format0 }, owner := .mapWriter
      mgmt := { MgmtPort.reset with long := .mapFormat } }

/-- The stored bytes of copy 1 holding an empty map with sequence 1, its CRC 84E6h worked out by hand from R185. -/
def copy1 : List Host.Cell :=
  [(16320, 0xA5), (16321, 1), (16322, 0), (16323, 0), (16324, 0), (16325, 0), (16374, 0xE6), (16375, 0x84)]

/-- The 64 bytes of that copy. -/
def bytes1 : List Byte := [0xA5, 1, 0, 0, 0, 0] ++ List.replicate 48 0xFF ++ [0xE6, 0x84] ++ List.replicate 8 0xFF

theorem test_crc_of_the_digits : crc16 [0x31, 0x32, 0x33, 0x34, 0x35, 0x36, 0x37, 0x38, 0x39] = 0x29B1 := by
  simp [crc16, crcByte, crcBit]

theorem test_copy_is_valid : rejection 238 bytes1 = none := by
  have h : crc16 (bytes1.take 54) = 0x84E6 := by simp [bytes1, List.replicate, crc16, crcByte, crcBit]
  unfold rejection
  rw [h]
  decide

/-- What a map load makes of that copy. -/
theorem copy1_usable (b : List Byte) (h : b = bytes1) :
    b ≠ List.replicate 64 0xFF ∧ rejection 238 b = none ∧
      ({ live := [], dead := 0, sequence := 1 } : CopyTable) = copyTable b := by
  subst h
  exact ⟨by decide, test_copy_is_valid, by decide⟩

/-! ### Ill-formed commands are refused -/

theorem test_worn_unsorted_refused : (Instr.fillCompletion 5 [(9, 1), (8, 1)]).wellFormed = false := by decide
theorem test_worn_twice_refused : (Instr.bypassCompletion 5 [(9, 1), (9, 2)]).wellFormed = false := by decide
theorem test_worn_outside_refused : (Instr.pollRead 5 true [(131072, 1)]).wellFormed = false := by decide
theorem test_verify_worn_refused : (Instr.verifyComplete 5 [(3, 1), (131072, 1)]).wellFormed = false := by decide
theorem test_backfill_worn_refused : (Instr.retireBackfillComplete 5 [(3, 1), (2, 1)]).wellFormed = false := by decide
theorem test_load_worn_refused : (Instr.mapLoadEnd 5 [(3, 1), (3, 1)]).wellFormed = false := by decide
theorem test_known_code_refused : (Instr.unknownCommand 5 0x0E []).wellFormed = false := by decide
theorem test_first_code_refused : (Instr.unknownCommand 5 0x01 []).wellFormed = false := by decide
theorem test_unknown_codes_taken :
    (Instr.unknownCommand 5 0x00 []).wellFormed = true ∧ (Instr.unknownCommand 5 0x0F []).wellFormed = true := by decide
theorem test_worn_taken : (Instr.fillCompletion 5 [(9, 1), (131071, 1)]).wellFormed = true := by decide

/-! ### Host ports (12.1, 12.3, 11.1). Moments are in units of 100 ns: 2 ms is 20000 -/

/-- 12.1, first row: word 0300h written at 0. -/
theorem test_write_takes_slot_0 :
    after (exec (.accessArrival 0 .a true 0x300 2 0x44332211) running)
      (fun u => ((u.slot 0).state, (u.slot 0).page, (u.slot 0).dirty, (u.slot 0).settle, (u.slot 0).age)) =
      some (.dirty, some 12, 0xF, some 20000, some 1000000) := by decide

/-- 12.3, row 5.0: a read miss at 50000 waits until 60240. -/
theorem test_read_miss_waits :
    after (exec (.accessArrival 50000 .a false 0xC88 2 0) { running with owner := .engine, condition := .programming })
      (fun u => ((u.slot 0).state, (u.slot 0).fillPending, (u.slot 0).waitA, u.portA.stall)) =
      some (.clean, some fullSet, some 0xF00, some 60240) := by decide

/-- R25: with the answer removed RDY is low and the port takes the next access. -/
theorem test_req_removed : after (exec (.reqRemoved 7 .a) answered) (fun u => (u.portA.rdy, u.portA.reqSpent)) =
    some (false, false) := by decide

/-- R25: a pulse of 100 ns. -/
theorem test_pulse_ends :
    after (exec (.rdyPulseEnd 8 .b) { running with portB := { HostPort.reset with rdy := true, pulseEnd := some 8 } })
      (fun u => u.portB.rdy) = some false := by decide

theorem test_pulse_stands :
    after (exec (.rdyPulseEnd 7 .b) { running with portB := { HostPort.reset with rdy := true, pulseEnd := some 8 } })
      (fun u => u.portB.rdy) = some true := by decide

/-- 12.3, row 2.53: the last waiter's expiry withdraws the fill and releases the empty slot. -/
theorem test_last_stall_expiry :
    after (exec (.stallExpiry 100 .b) { wait (put running 6 .clean 50 0 0) .b .waitFill acc0 (some 6) with owner := .engine })
      (fun u => ((u.slot 6).state, u.requests, u.portB.errcode, u.portB.lastError.detail)) = some (.free, [], 3, .fill) := by
  decide

theorem test_slot_stall_expiry :
    after (exec (.stallExpiry 101 .a) (wait packed .a .waitSlot write0 none))
      (fun u => (u.portA.state, u.portA.lastError.reason, u.portA.lastError.detail, u.portA.lastError.count)) =
      some (.idle, .stallExpired, .slot, 1) := by decide

/-! ### Reads of the array (12.2, 12.3) -/

/-- A fill in progress for slot 2, page 12, of which offsets 0 to 3 are present. -/
def filling : State :=
  { wait (put running 2 .clean 12 0xF 0) .a .waitFill acc0 (some 2) with
      requests := [], owner := .fill 2, reading := some { kind := .fill 2, page := 12, offsets := ~~~0xF, dropped := false } }

/-- 12.3, last row: the set is full, the port has its data, little-endian; an erased byte reads FFh. -/
theorem test_fill_completes :
    after (exec (.fillCompletion 60 [(800, 0x21), (803, 0x84)]) filling)
      (fun u => (u.portA.rdy, u.portA.rd)) = some (true, 0x84FFFF21) := by
  decide +kernel

theorem test_fill_is_whole :
    after (exec (.fillCompletion 60 []) filling) (fun u => ((u.slot 2).present, u.owner)) = some (fullSet, .none) := by decide

theorem test_bypass_completes :
    after (exec (.bypassCompletion 6 [(801, 0x55)])
        { wait running .a .waitBypass acc0 none with
            requests := [], owner := .bypass .a
            reading := some { kind := .bypass .a, page := 12, offsets := span 32 4, dropped := false } })
      (fun u => (u.portA.rdy, u.portA.err, u.portA.rd)) = some (true, false, 0xFFFF55FF) := by decide

/-! ### Sealing (12.1, chapter 3) -/

/-- 12.1, row 2.3: sealed, granted in the same event, target 12, snapshot of what was dirty, poll byte its highest offset. -/
theorem test_settle_commits :
    after (exec (.settleExpiry 23000 0)
        (put running 0 .dirty 12 0xFFF 0xFFF |>.modSlot 0 fun x => { x with settle := some 23000, age := some 1000000 }))
      (fun u => ((u.slot 0).dirty, u.commit.map fun c => (c.attempt.target, c.attempt.loadSet))) =
      some (0, some (12, 0xFFF)) := by decide

theorem test_settle_not_due :
    after (exec (.settleExpiry 22999 0)
        (put running 0 .dirty 12 0xFFF 0xFFF |>.modSlot 0 fun x => { x with settle := some 23000, age := some 1000000 }))
      (fun u => (u.slot 0).state) = some .dirty := by decide

theorem test_age_seals :
    after (exec (.ageExpiry 1000000 3)
        { (put running 3 .dirty 12 1 1 |>.modSlot 3 fun x => { x with settle := none, age := some 1000000 }) with
            owner := .fill 2, reading := none })
      (fun u => ((u.slot 3).state, u.queue)) = some (.sealed, [3]) := by decide

/-- R56: the FLUSH level is seen and the earlier dirty-since time heads the queue. -/
theorem test_flush_edge :
    after (exec (.flushRisingEdge 5) { put (put running 3 .dirty 12 1 1) 1 .dirty 13 1 1 with owner := .fill 9 })
      (fun u => (u.flushSeen, u.queue, u.ageList)) = some (true, [3, 1], []) := by decide

theorem test_flush_fall : after (exec (.flushFallingEdge 5) { running with flushSeen := true }) (fun u => u.flushSeen) =
    some false := by decide

/-- R58: from the edge on PFW is seen and every DIRTY slot sealed. -/
theorem test_power_fail :
    after (exec (.pfwAssertionEdge 5) { put running 3 .dirty 12 1 1 with owner := .fill 9 })
      (fun u => (u.pfw, u.queue)) = some (true, [3]) := by decide

/-- R59: the end of a power fail unseals nothing. -/
theorem test_power_back :
    after (exec (.pfwDeassertionEdge 5) { put running 3 .sealed 12 1 1 with owner := .fill 9, pfw := true })
      (fun u => (u.pfw, u.queue)) = some (false, [3]) := by decide

/-! ### The commit engine (12.1, 12.2, chapters 4, 6 and 7) -/

/-- R70: the next offset in rising order is loaded into the array's latch. -/
theorem test_page_load :
    after (exec (.pageLoad 400) (committing .home (attempt0 .load)))
      (fun u => (u.chip.latch, u.commit.map fun c => c.attempt.toLoad)) = some ([(1, 0)], some [2]) := by decide

/-- R72: 160 us after the last load the lapse is over and the poll deadline stands 16 ms later. -/
theorem test_lapse :
    after (exec (.lapseEnd 1600) { committing .home { attempt0 .lapse with toLoad := [] } with lastLoad := some 0 })
      (fun u => u.commit.map fun c => c.attempt.step) = some (some .poll) := by decide

/-- R86: while programming, the last loaded byte reads with bit 7 inverted. -/
theorem test_poll_goes_on :
    after (exec (.pollRead 1700 false [])
        { committing .home (attempt0 .poll) with
            chip := { State.reset.chip with latch := [(2, 0)], latchPage := 12, lastByte := 0, programming := true } })
      (fun u => u.commit.map fun c => c.attempt.step) = some (some .poll) := by decide

theorem test_poll_ends :
    after (exec (.pollRead 1700 true []) (committing .home (attempt0 .poll))) (fun u => u.commit.map fun c => c.attempt.step) =
      some (some .verify) := by decide

/-- R75, 11.1: a home timeout pins the slot and records PINNED with detail ARRAY_TIMEOUT; the store is DEGRADED. -/
theorem test_poll_timeout :
    after (exec (.pollDeadlineExpiry 160000) (committing .home (attempt0 .poll)))
      (fun u => ((u.slot 4).state, u.store.state, u.store.cause, u.log.records.map fun r => (r.kind, r.detail))) =
      some (.pinned, .degraded, some .arrayTimeout, [(.arrayTimeout, 1), (.pinned, 1)]) := by decide

/-- 12.1, row 12.2: a verified slot with nothing dirty is CLEAN. -/
theorem test_verify_clean :
    after (exec (.verifyComplete 9 [(768, 0), (769, 0), (770, 0)]) (committing .home (attempt0 .verify)))
      (fun u => ((u.slot 4).state, (u.slot 4).present, u.commit, u.recency)) = some (.clean, 7, none, [4]) := by decide

/-- 12.2, row 6.4: two attempts with RETRIES 1 failed; the backfill begins. -/
theorem test_verify_retires :
    after (exec (.verifyComplete 9 [(768, 0), (769, 0)])
        { committing .home { attempt0 .verify with number := 2 } with params := { Params.default with retries := 1 } })
      (fun u => u.commit.map fun c => (c.phase, c.backfill)) = some (some (.retireBackfill, ~~~7)) := by decide

/-- 12.2, row 6.5, with slot 4 of page 12: the spare snapshot is whole; spare 4 is physical page 242 at capacity code 0. -/
theorem test_backfill :
    after (exec (.retireBackfillComplete 9 [])
        { committing .retireBackfill (attempt0 .verify) with commit := some backfilling, remap := { table0 with dead := 3 } })
      (fun u => ((u.slot 4).present, u.commit.map fun c => (c.phase, c.attempt.target, c.attempt.number, c.attempt.loadSet))) =
      some (fullSet, some (.spareLoad, 242, 1, fullSet)) := by decide

/-! ### Start-up (8.1, 7.3, 11.9) -/

/-- R140: the hold of 10 ms begins at the quiet moment. -/
theorem test_hold_begins :
    after (exec (.holdBegin 1600)
        { State.reset with
            store := { State.reset.store with phase := some .quietWait, holdDeadline := none, quiet := 1600 } })
      (fun u => (u.store.phase, u.store.holdDeadline)) = some (some .hold, some 101600) := by decide

theorem test_hold_not_over :
    after (exec (.holdEnd 99999) State.reset) (fun u => u.store.phase) = some State.reset.store.phase := by decide

/-- R125: an erased array is two blank copies, an empty map; the store is RUNNING. -/
theorem test_blank_array_runs :
    after (exec (.mapLoadEnd 9 []) loading) (fun u => (u.store.state, u.remap.live, u.remap.sequence)) = some (.running, [], some 0) := by decide

/-- R127: copy 1 is read from offset 0 after the 64 bytes of copy 0. -/
theorem test_loader_goes_on_to_copy1 :
    after (step { loading with chip := { State.reset.chip with cells := copy1 }
                               loader := some { copy0 := List.replicate 64 0xFF, copy1 := [] } })
      (fun u => u.loader.map MapLoader.copy1) = some (some [0xA5]) := by decide

/-- R127: the bytes held stand; the rest are read at the end. A held marker FEh makes both copies invalid with 01h and 01h. -/
theorem test_held_bytes_count :
    after (exec (.mapLoadEnd 9 []) { loading with loader := some { copy0 := 0xFE :: List.replicate 63 0xFF, copy1 := [0xFE] } })
      (fun u => (u.store.cause, u.log.records.map fun r => (r.count, r.detail))) = some (some .mapInvalid, [(some 1, 1)]) := by
  decide

theorem test_reset_falls :
    after (exec (.resetNFall 5) (put running 3 .dirty 12 1 1)) (fun u => ((u.slot 3).state, u.resetN, u.driven, u.mgmt.bus)) =
      some (.free, false, false, .idle) := by decide

/-- R186: the straps are sampled at the rise. -/
theorem test_reset_rises :
    after (exec (.resetNRise 5 2 1 true false) { State.reset with resetN := false })
      (fun u => (u.resetN, u.capacity, u.addrStrap, u.store.state)) = some (true, 2, 1, .starting) := by decide

/-! ### The two-wire bus (chapter 10). The straps at reset give address 2Ch, write byte 58h, read byte 59h -/

/-- A write of three bytes to the part, still open. -/
def open3 : State := { running with mgmt := { MgmtPort.reset with bus := .receiving, received := [0x03, 0x05, 0x07] } }

theorem test_start_ends_write :
    after (exec (.startCondition 5) { open3 with mgmt := { open3.mgmt with received := [0x02, 0x05] } })
      (fun u => (u.mgmt.response, u.mgmt.addressDue)) = some ([0x00, 0x02, 0x05, 3, 0], true) := by decide

/-- R173: CONFIG_SET takes three argument bytes; ARG is 04h. -/
theorem test_stop_ends_write : after (exec (.stopCondition 5) open3) (fun u => u.mgmt.response) = some [0x04, 0x03] := by decide

theorem test_misplaced_drops :
    after (exec (.misplacedCondition 5 true) open3) (fun u => (u.mgmt.response, u.mgmt.received)) =
      some (running.mgmt.response, []) := by decide

theorem test_read_address :
    after (exec (.addressByte 5 0x59) { running with mgmt := { running.mgmt with addressDue := true } })
      (fun u => (u.mgmt.bus, u.mgmt.ack)) = some (.transmitting, true) := by decide

theorem test_other_address :
    after (exec (.addressByte 5 0x5A) { running with mgmt := { running.mgmt with addressDue := true } })
      (fun u => (u.mgmt.bus, u.mgmt.ack)) = some (.ignoring, false) := by decide

theorem test_fifth_byte_overflows :
    after (exec (.dataByte 5 9) { open3 with mgmt := { open3.mgmt with received := [1, 2, 3, 4] } })
      (fun u => (u.mgmt.received, u.mgmt.overflow, u.mgmt.ack)) = some ([1, 2, 3, 4], true, false) := by decide

theorem test_byte_past_response :
    after (exec (.responseByte 5 true)
        { running with mgmt := { MgmtPort.reset with bus := .transmitting, sending := true, response := [1, 5], readPos := 2 } })
      (fun u => (u.mgmt.sda, u.mgmt.readPos)) = some (some 0xFF, 3) := by decide

theorem test_general_call_byte :
    after (exec (.generalCallByte 5 0x06) { running with mgmt := { MgmtPort.reset with bus := .generalCall } })
      (fun u => (u.mgmt.bus, u.mgmt.ack)) = some (.ignoring, false) := by decide

theorem test_general_call_flush :
    after (exec (.generalCallFlush 5) { put running 3 .dirty 12 1 1 with owner := .fill 9 }) (fun u => (u.queue, u.mgmt)) =
      some ([3], running.mgmt) := by decide

/-- R187: AA, AD and the strobes are high-impedance while RESET_N is low. -/
theorem test_reset_releases_lines :
    after (exec (.resetNFall 5) running) (fun u => (u.aown, u.addressHighZ, u.dataHighZ)) = some (false, true, true) := by decide

/-- R187: from the rise AA and the strobes are driven, and AD is not until the first load. -/
theorem test_rise_drives_address :
    after (exec (.resetNRise 5 0 0 false false)
        { State.reset with resetN := false, driven := false, store := { State.reset.store with phase := some .quietWait } })
      (fun u => (u.aown, u.addressHighZ, u.dataHighZ)) = some (true, false, true) := by decide

/-- R91: AD is driven in a load. -/
theorem test_load_drives_data :
    after (exec (.flush 5 []) (put running 3 .dirty 12 0xF 0xF)) (fun u => (u.condition, u.addressHighZ, u.dataHighZ)) =
      some (.loading, false, false) := by decide

/-! ### Commands (10.6, 11.1 to 11.7) -/

theorem test_unknown : after (exec (.unknownCommand 5 0x0F []) running) (fun u => u.mgmt.response) = some [0x06, 0x0F] := by
  decide

/-- 11.3: RUNNING, AOWN high, 31 FREE, 1 CLEAN, 16 spares free, copy 0, sequence 0, capacity code 0. -/
theorem test_status :
    after (exec (.status 5 []) (put running 2 .clean 12 1 0)) (fun u => u.mgmt.response) =
      some [0, 1, 2, 0, 0x10, 31, 1, 0, 0, 0, 0, 0, 0, 0, 16, 0, 0, 0, 0, 0, 0] := by decide

/-- 12.2: STATUS reports 2 live, 3 dead and 11 free for the table with spare 1 and the two dead ones. -/
theorem test_status_spares :
    after (exec (.status 5 []) { running with remap := { table0 with dead := 0x13 } })
      (fun u => (u.mgmt.response.drop 12).take 6) = some [2, 3, 11, 1, 8, 0] := by decide

theorem test_config_get : after (exec (.configGet 5 [2]) running) (fun u => u.mgmt.response) = some [0, 2, 2, 100, 0] := by decide

theorem test_config_set :
    after (exec (.configSet 5 [4, 0xE8, 3]) running) (fun u => (u.params.stall, u.mgmt.response)) =
      some (1000, [0, 3, 4, 0xE8, 3]) := by decide

theorem test_config_range :
    after (exec (.configSet 5 [4, 0xE9, 3]) running) (fun u => (u.params.stall, u.mgmt.response)) = some (64, [5, 3]) := by decide

theorem test_flush_counts :
    after (exec (.flush 5 []) { put (put running 3 .dirty 12 1 1) 1 .dirty 13 1 1 with owner := .fill 9 })
      (fun u => u.mgmt.response) = some [0, 4, 2] := by decide

/-- 12.4, first row: ACCEPTED, DRAINING, slot 5 COMMITTING. -/
theorem test_quiesce_drains :
    after (exec (.quiesce 5 []) (put running 5 .dirty 61 1 1)) (fun u => (u.mgmt.response, u.store.state, (u.slot 5).state)) =
      some ([1, 5], .draining, .committing) := by decide

/-- With nothing to drain the quiesce ends in its own event, and the port is released (R184). -/
theorem test_quiesce_at_once :
    after (exec (.quiesce 5 []) running) (fun u => (u.mgmt.response, u.store.state, u.driven)) =
      some ([0, 5], .quiesced, false) := by decide

/-- 12.4, RESUME row: slot 2 keeps offset 1 only, slot 5 is released. -/
theorem test_resume :
    after (exec (.resume 5 [])
        { put (put running 2 .dirty 60 fullSet 2) 5 .clean 61 1 0 with
            store := { running.store with state := .quiesced }, driven := false })
      (fun u => (u.store.state, (u.slot 2).present, (u.slot 5).state)) = some (.starting, 2, .free) := by
  decide +kernel

theorem test_restart :
    after (exec (.restart 5 []) (put running 3 .dirty 12 1 1))
      (fun u => (u.mgmt.response, (u.slot 3).state, u.store.state, u.log.records.map fun r => (r.kind, r.detail))) =
      some ([1, 7], .free, .starting, [(.restarted, 2)]) := by decide

theorem test_log_empty : after (exec (.logRead 5 []) running) (fun u => u.mgmt.response) = some [7, 8] := by decide

theorem test_log_read :
    after (exec (.logRead 5 []) { running with log := { records := [record0], next := 2, unread := 1 } })
      (fun u => (u.mgmt.response, u.log.unread)) = some ([0, 8, 1, 0, 1, 12, 0, 12, 0, 1, 1, 0], 0) := by decide

theorem test_slot_read :
    after (exec (.slotRead 5 [3]) (put running 3 .dirty 0x123 0x103 1)) (fun u => u.mgmt.response) =
      some [0, 9, 3, 2, 0x23, 1, 3, 1, 0, 0, 0, 0, 0, 0, 1, 0, 0, 0, 0, 0, 0, 0, 0, 0, 0, 0, 0, 0, 0, 0, 0] := by decide

/-- 11.5 with the entry (90, 2) of 12.2 at capacity code 0: physical page 240. -/
theorem test_map_read :
    after (exec (.mapRead 5 [1]) { running with remap := table0 }) (fun u => u.mgmt.response) =
      some [0, 0x0A, 1, 90, 0, 2, 240, 0] := by decide

/-- 12.3 after row 2.03: STALL_EXPIRED, FILL, 0C88h, size 4, READ, 1; the record is then cleared (R46). -/
theorem test_port_error :
    after (exec (.portError 5 [0])
        { running with
            portA :=
              { HostPort.reset with
                  lastError :=
                    { reason := .stallExpired, detail := .fill, addr := some 0xC88, size := some 2, write := some false, count := 1 } } })
      (fun u => (u.mgmt.response, u.portA.lastError)) =
      some ([0, 0x0B, 0, 3, 3, 0x88, 0x0C, 0, 4, 0, 1], LastError.cleared) := by decide

theorem test_retry :
    after (exec (.retry 5 []) { put running 0 .pinned 12 1 1 with owner := .fill 9 })
      (fun u => (u.mgmt.response, u.pinned, u.queue)) = some ([0, 0x0C, 1], [], [0]) := by decide

theorem test_discard :
    after (exec (.discard 5 [0]) (put running 0 .pinned 12 1 1))
      (fun u => (u.mgmt.response, (u.slot 0).state, u.log.records.map fun r => (r.kind, r.detail))) =
      some ([0, 0x0D, 1], .free, [(.discarded, 0)]) := by decide

theorem test_discard_not_pinned : after (exec (.discard 5 [0]) running) (fun u => u.mgmt.response) = some [3, 0x0D] := by decide

theorem test_format :
    after (exec (.mapFormat 5 []) (degraded .mapInvalid))
      (fun u => (u.mgmt.response, u.mgmt.long, u.writer.map fun w => w.purpose)) = some ([1, 0x0E], .mapFormat, some .format0) := by
  decide

theorem test_format_refused : after (exec (.mapFormat 5 []) running) (fun u => u.mgmt.response) = some [3, 0x0E] := by decide

/-! ### Witnesses: the hypotheses of each statement can be met -/

theorem witness_StepTakesFrontCommand :
    (let c : Instr := .flush 5 []
     let rest : List Instr := [.status 6 []]
     let s : State := { running with pending := [.flush 5 [], .status 6 []] }
     s.pending = c :: rest) ∧
    (let s : State := running
     s.pending = [] ∧ s.loader = none) := by
  dsimp only
  and_intros <;> decide

theorem witness_GrantRuleOrder :
    (let s : State := { put running 4 .sealed 12 0xF 0xF with owner := .engine }
     let m : State := { put running 4 .sealed 12 0xF 0xF with owner := .engine, engineReq := some .commitEngine }
     m = (if s.works ∧ s.queue ≠ [] ∧ s.commit = none ∧ s.engineReq = none then
     { s with engineReq := some .commitEngine, fairness := 0 } else s) ∧ ¬m.freeArray) ∧
    (let s : State := { put running 4 .sealed 12 0xF 0xF with engineReq := some .commitEngine, fairness := 4 }
     let m : State := { put running 4 .sealed 12 0xF 0xF with engineReq := some .commitEngine, fairness := 4 }
     m = (if s.works ∧ s.queue ≠ [] ∧ s.commit = none ∧ s.engineReq = none then
     { s with engineReq := some .commitEngine, fairness := 0 } else s) ∧ m.freeArray ∧ m.engineReq ≠ none ∧ (m.pfw = true
     ∨ m.fairness = 4)) ∧
    (let s : State :=
         { put running 4 .sealed 12 0xF 0xF with requests := [.fill 0], engineReq := some .commitEngine, fairness := 3 }
     let m : State :=
         { put running 4 .sealed 12 0xF 0xF with requests := [.fill 0], engineReq := some .commitEngine, fairness := 3 }
     let r : Request := .fill 0
     let rest : List Request := []
     m = (if s.works ∧ s.queue ≠ [] ∧ s.commit = none ∧ s.engineReq = none then
     { s with engineReq := some .commitEngine, fairness := 0 } else s) ∧ m.freeArray ∧ (m.engineReq = none ∨ m.pfw =
     false ∧ m.fairness ≠ 4) ∧ m.requests = r :: rest) ∧
    (let s : State := put running 4 .sealed 12 0xF 0xF
     let m : State := { put running 4 .sealed 12 0xF 0xF with engineReq := some .commitEngine }
     m = (if s.works ∧ s.queue ≠ [] ∧ s.commit = none ∧ s.engineReq = none then
     { s with engineReq := some .commitEngine, fairness := 0 } else s) ∧ m.freeArray ∧ (m.engineReq = none ∨ m.pfw =
     false ∧ m.fairness ≠ 4) ∧ m.requests = []) := by
  dsimp only
  and_intros <;> decide

theorem witness_GrantGivesTheArray :
    (let s : State := wait (put running 2 .clean 12 0xF 0) .a .waitFill acc0 (some 2)
     let i : SlotIx := 2
     let page : Nat := 12
     let rest : List Request := []
     let x := s.slot i
     let missing := x.fillPending.getD 0 &&& ~~~x.present
     s.requests = .fill i :: rest ∧ x.page = some page ∧ missing ≠ 0) ∧
    (let s : State := { put running 2 .clean 12 fullSet 0 with requests := [.fill 2] }
     let i : SlotIx := 2
     let rest : List Request := []
     let x := s.slot i
     let missing := x.fillPending.getD 0 &&& ~~~x.present
     s.requests = .fill i :: rest ∧ missing = 0 ∧ s.waitersReady i x.present) ∧
    (let s : State := wait running .a .waitBypass acc0 none
     let p : PortId := .a
     let acc : Access := acc0
     let rest : List Request := []
     s.requests = .bypass p :: rest ∧ (s.port p).access = some acc) ∧
    (let s : State := { put running 2 .sealed 12 0xF 0xF with engineReq := some .commitEngine }
     let i : SlotIx := 2
     let page : Nat := 12
     let later : List SlotIx := []
     let x := s.slot i
     s.engineReq = some .commitEngine ∧ s.queue = i :: later ∧ x.state = .sealed ∧ x.page = some page) ∧
    (let s : State := { formatting with engineReq := some .mapWriter, owner := .none }
     s.engineReq = some .mapWriter) := by
  dsimp only
  and_intros <;> decide

theorem witness_WaitingWritesTakeAllocatableSlots :
    (let s : State := running
     s.noWriteWaits) ∧
    (let s : State := wait packed .a .waitSlot write0 none
     let p : PortId := .a
     let acc : Access := write0
     (s.port p).state = .waitSlot ∧ (s.port p).access = some acc ∧ s.uncarried acc.page ∧ s.noneAllocatable) ∧
    (let s : State := wait running .a .waitSlot write0 none
     let p : PortId := .a
     let acc : Access := write0
     let i : SlotIx := 0
     (s.port p).state = .waitSlot ∧ (s.port p).access = some acc ∧ s.uncarried acc.page ∧ s.takes i ∧ s.collectionsOk ∧
     acc.offsets ≠ 0) ∧
    (let s : State := wait (wait running .a .waitSlot write0 none) .b .waitSlot { write0 with order := 1 } none
     let accA : Access := write0
     let accB : Access := { write0 with order := 1 }
     s.portA.access = some accA ∧ s.portB.access = some accB) ∧
    (let s : State := wait running .b .waitSlot write0 none
     (s.portA.access = none ∨ s.portB.access = none)) ∧
    (let s : State := wait (put running 2 .sealed 12 0xF 0xF) .a .waitSlot write0 none
     let p : PortId := .a
     let acc : Access := write0
     let i : SlotIx := 2
     (s.port p).state = .waitSlot ∧ (s.port p).access = some acc ∧ s.soleCarrier i acc.page ∧ ((s.slot i).state = .sealed
     ∨ (s.slot i).state = .committing ∨ (s.slot i).state = .pinned)) ∧
    (let s : State := wait (put running 2 .committing 12 0xF 0xF) .a .waitSlot write0 none
     let p : PortId := .a
     let acc : Access := write0
     let i : SlotIx := 2
     (s.port p).state = .waitSlot ∧ (s.port p).access = some acc ∧ s.soleCarrier i acc.page ∧ ((s.slot i).state = .sealed
     ∨ (s.slot i).state = .committing ∨ (s.slot i).state = .pinned)) ∧
    (let s : State := wait (put running 2 .pinned 12 0xF 0xF) .a .waitSlot write0 none
     let p : PortId := .a
     let acc : Access := write0
     let i : SlotIx := 2
     (s.port p).state = .waitSlot ∧ (s.port p).access = some acc ∧ s.soleCarrier i acc.page ∧ ((s.slot i).state = .sealed
     ∨ (s.slot i).state = .committing ∨ (s.slot i).state = .pinned)) ∧
    (let s : State := wait (put running 2 .dirty 12 0xF 0xF) .a .waitSlot write0 none
     let p : PortId := .a
     let acc : Access := write0
     let i : SlotIx := 2
     let x := (s.slot i).merge acc s.now
     (s.port p).state = .waitSlot ∧ (s.port p).access = some acc ∧ s.soleCarrier i acc.page ∧ (s.slot i).state = .dirty ∧
     (¬s.works ∨ x.dirty ≠ fullSet)) ∧
    (let s : State := wait (put running 2 .dirty 12 (~~~span 32 4) (~~~span 32 4)) .a .waitSlot write0 none
     let p : PortId := .a
     let acc : Access := write0
     let i : SlotIx := 2
     let x := (s.slot i).merge acc s.now
     (s.port p).state = .waitSlot ∧ (s.port p).access = some acc ∧ s.soleCarrier i acc.page ∧ (s.slot i).state = .dirty ∧
     s.holds s.ageList .dirty ∧ s.works ∧ x.dirty = fullSet) ∧
    (let s : State := wait (put running 2 .clean 12 0xF 0) .a .waitSlot write0 none
     let p : PortId := .a
     let acc : Access := write0
     let i : SlotIx := 2
     (s.port p).state = .waitSlot ∧ (s.port p).access = some acc ∧ s.soleCarrier i acc.page ∧ (s.slot i).state = .clean ∧
     (s.slot i).fieldsOk ∧ (s.slot i).setsOk ∧ s.holds s.ageList .dirty) := by
  dsimp only
  and_intros <;> decide

theorem witness_EntryToRunning :
    (let s : State :=
         { put (put { running with params := { Params.default with aged := true } } 3 .dirty 12 0xF 0xF) 5 .dirty 13 fullSet fullSet with store := { State.reset.store with phase := some .mapLoad, holdDeadline := none } }
     s.holds s.ageList .dirty) := by
  dsimp only
  and_intros <;> decide

theorem witness_EntryToDegraded :
    (let s : State := wait packed .a .waitSlot write0 none
     let cause : Cause := .mapWriteFail
     s.portA.fieldsOk ∧ s.portB.fieldsOk ∧ (cause ≠ .arrayTimeout ∨ s.requests = [])) ∧
    (let s : State := running
     let cause : Cause := .arrayTimeout
     s.portA.fieldsOk ∧ s.portB.fieldsOk ∧ cause = .arrayTimeout ∧ s.requests.Nodup ∧ s.waitOk .a ∧ s.waitOk .b) ∧
    (let s : State := wait running .a .waitBypass acc0 none
     let cause : Cause := .arrayTimeout
     let p : PortId := .a
     let acc : Access := acc0
     s.portA.fieldsOk ∧ s.portB.fieldsOk ∧ cause = .arrayTimeout ∧ s.requests.Nodup ∧ s.waitOk .a ∧ s.waitOk .b ∧ (s.port
     p).state = .waitBypass ∧ .bypass p ∈ s.requests ∧ (s.port p).access = some acc) ∧
    (let s : State := wait (put running 2 .clean 12 0xF 0) .a .waitFill acc0 (some 2)
     let cause : Cause := .arrayTimeout
     let p : PortId := .a
     let acc : Access := acc0
     let i : SlotIx := 2
     s.portA.fieldsOk ∧ s.portB.fieldsOk ∧ cause = .arrayTimeout ∧ s.requests.Nodup ∧ s.waitOk .a ∧ s.waitOk .b ∧ (s.port
     p).state = .waitFill ∧ (s.port p).waited = some i ∧ .fill i ∈ s.requests ∧ (s.port p).access = some acc) ∧
    (let s : State := wait (wait (put running 2 .clean 12 0xF 0) .a .waitFill acc0 (some 2)) .b .waitBypass acc0 none
     let cause : Cause := .arrayTimeout
     s.portA.fieldsOk ∧ s.portB.fieldsOk ∧ cause = .arrayTimeout ∧ s.withdrawable) ∧
    (let s : State := wait (put running 2 .clean 12 0 0) .a .waitFill acc0 (some 2)
     let cause : Cause := .arrayTimeout
     s.portA.fieldsOk ∧ s.portB.fieldsOk ∧ cause = .arrayTimeout ∧ s.withdrawable) := by
  dsimp only
  and_intros <;> decide

theorem witness_EntryToQuiesced :
    (let s : State := wait packed .a .waitSlot write0 none
     s.portA.fieldsOk ∧ s.portB.fieldsOk ∧ s.requests = [] ∧ s.noneAllocatable ∧ (s.portA.state = .waitSlot ∨
     s.portB.state = .waitSlot) ∧ (∀ a ∈ s.portA.access, s.portA.state = .waitSlot → s.uncarried a.page) ∧ (∀ b ∈
     s.portB.access, s.portB.state = .waitSlot → s.uncarried b.page)) ∧
    (let s : State := running
     s.portA.fieldsOk ∧ s.portB.fieldsOk ∧ s.requests = [] ∧ s.noWriteWaits) ∧
    (let s : State := wait running .a .waitBypass acc0 none
     s.portA.fieldsOk ∧ s.portB.fieldsOk ∧ s.requests.Nodup ∧ s.waitOk .a ∧ s.waitOk .b) ∧
    (let s : State := wait running .a .waitBypass acc0 none
     let p : PortId := .a
     let acc : Access := acc0
     s.portA.fieldsOk ∧ s.portB.fieldsOk ∧ s.requests.Nodup ∧ s.waitOk .a ∧ s.waitOk .b ∧ (s.port p).state = .waitBypass
     ∧ .bypass p ∈ s.requests ∧ (s.port p).access = some acc) ∧
    (let s : State := wait (put running 2 .clean 12 0xF 0) .a .waitFill acc0 (some 2)
     let p : PortId := .a
     let acc : Access := acc0
     let i : SlotIx := 2
     s.portA.fieldsOk ∧ s.portB.fieldsOk ∧ s.requests.Nodup ∧ s.waitOk .a ∧ s.waitOk .b ∧ (s.port p).state = .waitFill ∧
     (s.port p).waited = some i ∧ .fill i ∈ s.requests ∧ (s.port p).access = some acc) ∧
    (let s : State := wait (wait (put running 2 .clean 12 0 0) .a .waitFill acc0 (some 2)) .b .waitSlot write0 none
     s.portA.fieldsOk ∧ s.portB.fieldsOk ∧ s.withdrawable) := by
  dsimp only
  and_intros <;> decide

theorem witness_FaultLogTakesOneRecord :
    (let s : State := running
     s.log.records.length < 16) ∧
    (let s : State := { running with log := { records := List.replicate 16 record0, next := 7, unread := 16 } }
     let head : FaultRecord := record0
     let tail : List FaultRecord := List.replicate 15 record0
     s.log.records = head :: tail ∧ s.log.records.length = 16) := by
  dsimp only
  and_intros <;> decide

theorem witness_LastErrorRecordsErrorResponses :
    (let s : State := wait running .b .waitSlot write0 none
     let p : PortId := .b
     let acc : Access := write0
     let reason : Reason := .stallExpired
     (s.port p).access = some acc ∧ reason ≠ .none ∧ reason ≠ .notReady) ∧
    (let s : State :=
         (wait running .b .waitSlot write0 none).setPort .b { (wait running .b .waitSlot write0 none).portB with lastError := { LastError.cleared with count := 254 } }
     let p : PortId := .b
     let acc : Access := write0
     let reason : Reason := .stallExpired
     (s.port p).access = some acc ∧ reason ≠ .none ∧ reason ≠ .notReady) ∧
    (let s : State :=
         (wait running .b .waitSlot write0 none).setPort .b { (wait running .b .waitSlot write0 none).portB with lastError := { LastError.cleared with count := 255 } }
     let p : PortId := .b
     let acc : Access := write0
     let reason : Reason := .stallExpired
     (s.port p).access = some acc ∧ reason ≠ .none ∧ reason ≠ .notReady) := by
  dsimp only
  and_intros <;> decide

theorem witness_DataLanesCarryBytesLittleEndian :
    (let acc : Access := write0
     let k : Nat := 3
     acc.size ≠ 3 ∧ acc.addr.toNat % sizeBytes acc.size = 0 ∧ k < 4) ∧
    (let acc : Access := write0
     let k : Nat := 3
     acc.size ≠ 3 ∧ acc.addr.toNat % sizeBytes acc.size = 0 ∧ k < sizeBytes acc.size) ∧
    (let acc : Access := write0
     let k : Nat := 36
     acc.size ≠ 3 ∧ acc.addr.toNat % sizeBytes acc.size = 0 ∧ (k < acc.offset ∨ acc.offset + sizeBytes acc.size ≤ k)) ∧
    (let acc : Access := write0
     acc.size ≠ 3 ∧ acc.addr.toNat % sizeBytes acc.size = 0) := by
  dsimp only
  and_intros <;> decide

theorem witness_AgeListInsertionKeepsOrder :
    (let s : State := put (put running 3 .dirty 12 1 1) 5 .dirty 13 1 1
     let i : SlotIx := 4
     let l : List SlotIx := [3, 5]
     let before : SlotIx → SlotIx → Prop := fun a b => (s.slot a).dirtySince.getD 0 < (s.slot b).dirtySince.getD 0 ∨
       (s.slot a).dirtySince.getD 0 = (s.slot b).dirtySince.getD 0 ∧ a < b
     i ∉ l ∧ l.Pairwise before) ∧
    (let i : SlotIx := 4
     let l : List SlotIx := [3, 5]
     i ∉ l ∧ l.Pairwise (· < ·)) := by
  dsimp only
  and_intros <;> decide

theorem witness_TranslationAndSpareChoice :
    (let s : State := { running with remap := table0 }
     let e : RemapEntry := { page := 17, spare := 3 }
     s.remap.ok ∧ e ∈ s.remap.live) ∧
    (let s : State := { running with remap := table0 }
     let page : Nat := 120
     s.remap.ok ∧ (∀ x ∈ s.remap.live, x.page ≠ page)) ∧
    (let s : State := { running with remap := table0 }
     s.remap.ok) ∧
    (let s : State := { running with remap := table0 }
     let page : Nat := 90
     let newlyDead : List SpareIx := [2]
     let sp : SpareIx := 4
     s.remap.ok ∧ s.remap.lowestFree newlyDead sp ∧ (∀ x ∈ s.remap.live, x.page ≠ page → x.spare ∉ newlyDead)) := by
  dsimp only
  and_intros <;> decide

theorem witness_ArrivalRefusalsInOrder :
    (let p : PortId := .a
     let s : State := { running with resetN := false }
     (s.port p).ready ∧ s.resetN = false) ∧
    (let p : PortId := .a
     let size : BitVec 2 := 3
     let s : State := running
     (s.port p).ready ∧ s.resetN = true ∧ size = 3) ∧
    (let p : PortId := .a
     let addr : BitVec 17 := 0x302
     let size : BitVec 2 := 2
     let s : State := running
     (s.port p).ready ∧ s.resetN = true ∧ size ≠ 3 ∧ addr.toNat % sizeBytes size ≠ 0) ∧
    (let p : PortId := .a
     let addr : BitVec 17 := 0x3B80
     let size : BitVec 2 := 2
     let s : State := running
     (s.port p).ready ∧ s.resetN = true ∧ size ≠ 3 ∧ addr.toNat % sizeBytes size = 0 ∧ windowBytes s.capacity ≤
     addr.toNat) ∧
    (let p : PortId := .a
     let wr : Bool := true
     let addr : BitVec 17 := 0x3B7C
     let size : BitVec 2 := 2
     let s : State := { running with pfw := true }
     (s.port p).ready ∧ s.resetN = true ∧ size ≠ 3 ∧ addr.toNat % sizeBytes size = 0 ∧ addr.toNat < windowBytes
     s.capacity ∧ wr = true ∧ s.pfw = true) ∧
    (let p : PortId := .a
     let wr : Bool := true
     let addr : BitVec 17 := 0x300
     let size : BitVec 2 := 2
     let s : State := degraded .mapInvalid
     (s.port p).ready ∧ s.resetN = true ∧ size ≠ 3 ∧ addr.toNat % sizeBytes size = 0 ∧ addr.toNat < windowBytes
     s.capacity ∧ wr = true ∧ s.pfw = false ∧ s.store.state = .degraded) := by
  dsimp only
  and_intros <;> decide

theorem witness_ReadHitAnswersFromImage :
    (let p : PortId := .a
     let addr : BitVec 17 := 0x33C
     let size : BitVec 2 := 2
     let s : State := put running 2 .clean 12 (span 60 4) 0
     let i : SlotIx := 2
     (s.port p).ready ∧ s.passes false addr size ∧ s.soleCarrier i (addr.toNat / 64) ∧ (s.slot i).covers addr size ∧
     (s.slot i).fieldsOk) := by
  dsimp only
  and_intros <;> decide

theorem witness_WriteJoinsUndurableSlot :
    (let p : PortId := .a
     let addr : BitVec 17 := 0x33C
     let size : BitVec 2 := 2
     let s : State := put running 2 .sealed 12 0xF 0xF
     let i : SlotIx := 2
     (s.port p).ready ∧ s.passes true addr size ∧ s.soleCarrier i (addr.toNat / 64) ∧ ((s.slot i).state = .sealed ∨
     (s.slot i).state = .committing ∨ (s.slot i).state = .pinned)) ∧
    (let t : Time := 0
     let p : PortId := .a
     let addr : BitVec 17 := 0x33C
     let size : BitVec 2 := 2
     let wd : BitVec 32 := 0x44332211
     let s : State := put running 2 .dirty 12 0xF 0xF
     let i : SlotIx := 2
     let acc := s.arrival t true addr size wd
     let x := (s.slot i).merge acc (max s.now t)
     (s.port p).ready ∧ s.passes true addr size ∧ s.soleCarrier i (addr.toNat / 64) ∧ (s.slot i).state = .dirty ∧
     (¬s.works ∨ x.dirty ≠ fullSet)) ∧
    (let t : Time := 0
     let p : PortId := .a
     let addr : BitVec 17 := 0x33C
     let size : BitVec 2 := 2
     let wd : BitVec 32 := 0x44332211
     let s : State := put running 2 .dirty 12 0x0FFFFFFFFFFFFFFF 0x0FFFFFFFFFFFFFFF
     let i : SlotIx := 2
     let acc := s.arrival t true addr size wd
     let x := (s.slot i).merge acc (max s.now t)
     (s.port p).ready ∧ s.passes true addr size ∧ s.soleCarrier i (addr.toNat / 64) ∧ (s.slot i).state = .dirty ∧ s.holds
     s.ageList .dirty ∧ s.works ∧ x.dirty = fullSet) := by
  dsimp only
  and_intros <;> decide

theorem witness_WriteMakesCleanSlotDirty :
    (let p : PortId := .a
     let addr : BitVec 17 := 0x33C
     let size : BitVec 2 := 2
     let s : State := put running 2 .clean 12 0xF 0
     let i : SlotIx := 2
     (s.port p).ready ∧ s.passes true addr size ∧ s.soleCarrier i (addr.toNat / 64) ∧ (s.slot i).state = .clean ∧ (s.slot
     i).fieldsOk ∧ (s.slot i).setsOk ∧ s.holds s.ageList .dirty) := by
  dsimp only
  and_intros <;> decide

theorem witness_WriteTakesNewSlot :
    (let p : PortId := .a
     let addr : BitVec 17 := 0x33C
     let size : BitVec 2 := 2
     let s : State := put running 0 .clean 13 0xF 0
     let i : SlotIx := 1
     (s.port p).ready ∧ s.passes true addr size ∧ s.uncarried (addr.toNat / 64) ∧ s.takes i ∧ s.collectionsOk) ∧
    (let p : PortId := .a
     let addr : BitVec 17 := 0x33C
     let size : BitVec 2 := 2
     let s : State := reused
     let i : SlotIx := 7
     (s.port p).ready ∧ s.passes true addr size ∧ s.uncarried (addr.toNat / 64) ∧ s.takes i ∧ s.collectionsOk) := by
  dsimp only
  and_intros <;> decide

theorem witness_AccessWithNoSlotOrNoArray :
    (let p : PortId := .a
     let wr : Bool := true
     let addr : BitVec 17 := 0x300
     let size : BitVec 2 := 2
     let s : State := packed
     (s.port p).ready ∧ (s.port p).fieldsOk ∧ s.passes wr addr size ∧ wr = true ∧ s.uncarried (addr.toNat / 64) ∧
     s.noneAllocatable) ∧
    (let p : PortId := .a
     let wr : Bool := false
     let addr : BitVec 17 := 0x300
     let size : BitVec 2 := 2
     let s : State := { put running 2 .clean 12 0xE 0 with store := { running.store with state := .quiesced } }
     let i : SlotIx := 2
     (s.port p).ready ∧ (s.port p).fieldsOk ∧ s.passes wr addr size ∧ wr = false ∧ ¬s.readable ∧ (s.uncarried (addr.toNat
     / 64) ∨ s.soleCarrier i (addr.toNat / 64) ∧ ¬(s.slot i).covers addr size)) := by
  dsimp only
  and_intros <;> decide

theorem witness_ReadMissWaitsForTheArray :
    (let p : PortId := .a
     let addr : BitVec 17 := 0x33C
     let size : BitVec 2 := 2
     let s : State := put running 2 .clean 12 0xF 0
     let i : SlotIx := 2
     (s.port p).ready ∧ (s.port p).fieldsOk ∧ s.passes false addr size ∧ s.readable ∧ s.soleCarrier i (addr.toNat / 64) ∧
     ¬(s.slot i).covers addr size) ∧
    (let p : PortId := .a
     let addr : BitVec 17 := 0x33C
     let size : BitVec 2 := 2
     let s : State := put running 0 .clean 13 0xF 0
     let i : SlotIx := 1
     (s.port p).ready ∧ (s.port p).fieldsOk ∧ s.passes false addr size ∧ s.readable ∧ s.uncarried (addr.toNat / 64) ∧
     s.takes i ∧ s.collectionsOk) ∧
    (let p : PortId := .a
     let addr : BitVec 17 := 0x33C
     let size : BitVec 2 := 2
     let s : State := packed
     (s.port p).ready ∧ (s.port p).fieldsOk ∧ s.passes false addr size ∧ s.readable ∧ s.uncarried (addr.toNat / 64) ∧
     s.noneAllocatable) := by
  dsimp only
  and_intros <;> decide

theorem witness_HandshakeOfAnswers :
    (let p : PortId := .a
     let s : State := wait running .a .waitBypass acc0 none
     let h := s.port p
     h.state ≠ .idle) ∧
    (let p : PortId := .a
     let s : State := answered
     let h := s.port p
     h.state = .idle ∧ h.rdy = true) ∧
    (let p : PortId := .a
     let s : State := { running with portA := { HostPort.reset with req := true, reqSpent := true } }
     let h := s.port p
     h.state = .idle ∧ h.rdy = false ∧ h.reqSpent = true) ∧
    (let p : PortId := .a
     let s : State := running
     let h := s.port p
     h.pulseEnd = none) := by
  dsimp only
  and_intros <;> decide

theorem witness_StallExpiryAnswersByWaitState :
    (let p : PortId := .a
     let s : State := running
     let h := s.port p
     h.stall = none) ∧
    (let t : Time := 99
     let p : PortId := .a
     let s : State := wait (put running 2 .clean 12 0xF 0) .a .waitFill acc0 (some 2)
     let d : Time := 100
     let h := s.port p
     h.stall = some d ∧ max s.now t < d) ∧
    (let t : Time := 100
     let p : PortId := .a
     let s : State :=
         { wait (put running 2 .clean 12 0xF 0) .a .waitFill acc0 (some 2) with requests := [], owner := .fill 2 }
     let i : SlotIx := 2
     let acc : Access := acc0
     let d : Time := 100
     let h := s.port p
     let x := (s.slot i).setWait p none
     h.stall = some d ∧ d ≤ max s.now t ∧ h.access = some acc ∧ h.state = .waitFill ∧ h.waited = some i ∧ (x.waitA ≠ none
     ∨ x.waitB ≠ none ∨ .fill i ∉ s.requests)) ∧
    (let t : Time := 100
     let p : PortId := .a
     let s : State := wait (put running 2 .clean 12 0xF 0) .a .waitFill acc0 (some 2)
     let i : SlotIx := 2
     let acc : Access := acc0
     let d : Time := 100
     let h := s.port p
     let x := (s.slot i).setWait p none
     h.stall = some d ∧ d ≤ max s.now t ∧ h.access = some acc ∧ h.state = .waitFill ∧ h.waited = some i ∧ x.waitA = none
     ∧ x.waitB = none ∧ .fill i ∈ s.requests ∧ x.present ≠ 0) ∧
    (let t : Time := 100
     let p : PortId := .a
     let s : State := wait (put running 2 .clean 12 0 0) .a .waitFill acc0 (some 2)
     let i : SlotIx := 2
     let acc : Access := acc0
     let d : Time := 100
     let h := s.port p
     let x := (s.slot i).setWait p none
     h.stall = some d ∧ d ≤ max s.now t ∧ h.access = some acc ∧ h.state = .waitFill ∧ h.waited = some i ∧ x.waitA = none
     ∧ x.waitB = none ∧ .fill i ∈ s.requests ∧ x.present = 0 ∧ x.dirty = 0 ∧ x.state = .clean) ∧
    (let t : Time := 100
     let p : PortId := .a
     let s : State := wait running .a .waitBypass acc0 none
     let acc : Access := acc0
     let d : Time := 100
     let h := s.port p
     h.stall = some d ∧ d ≤ max s.now t ∧ h.access = some acc ∧ h.state = .waitBypass ∧ .bypass p ∈ s.requests) ∧
    (let t : Time := 100
     let p : PortId := .a
     let s : State := { wait running .a .waitBypass acc0 none with requests := [], owner := .bypass .a }
     let acc : Access := acc0
     let d : Time := 100
     let h := s.port p
     h.stall = some d ∧ d ≤ max s.now t ∧ h.access = some acc ∧ h.state = .waitBypass ∧ .bypass p ∉ s.requests ∧ s.owner
     = .bypass p) ∧
    (let t : Time := 100
     let p : PortId := .a
     let s : State := wait packed .a .waitSlot write0 none
     let acc : Access := write0
     let d : Time := 100
     let h := s.port p
     h.stall = some d ∧ d ≤ max s.now t ∧ h.access = some acc ∧ h.state = .waitSlot) := by
  dsimp only
  and_intros <;> decide

theorem witness_FillCompletionLandsMissingBytes :
    (let s : State :=
         { running with owner := .fill 2, reading := some ({ kind := .fill 2, page := 12, offsets := ~~~0xF, dropped := true }) }
     let i : SlotIx := 2
     let g : Reading := { kind := .fill 2, page := 12, offsets := ~~~0xF, dropped := true }
     s.reading = some g ∧ g.kind = .fill i ∧ g.dropped = true) ∧
    (let s : State :=
         { wait (put running 2 .clean 12 0xF 0) .a .waitFill acc0 (some 2) with requests := [], owner := .fill 2, reading := some ({ kind := .fill 2, page := 12, offsets := ~~~0xF, dropped := false }) }
     let i : SlotIx := 2
     let g : Reading := { kind := .fill 2, page := 12, offsets := ~~~0xF, dropped := false }
     s.reading = some g ∧ g.kind = .fill i ∧ g.dropped = false ∧ s.waitersReady i ((s.slot i).present ||| g.offsets)) := by
  dsimp only
  and_intros <;> decide

theorem witness_BypassCompletionDeliversNewestBytes :
    (let s : State :=
         { running with owner := .bypass .a, reading := some ({ kind := .bypass .a, page := 12, offsets := span 32 4, dropped := true }) }
     let p : PortId := .a
     let g : Reading := { kind := .bypass .a, page := 12, offsets := span 32 4, dropped := true }
     s.reading = some g ∧ g.kind = .bypass p ∧ g.dropped = true) ∧
    (let s : State :=
         { wait running .a .waitBypass acc0 none with requests := [], owner := .bypass .a, reading := some ({ kind := .bypass .a, page := 12, offsets := span 32 4, dropped := false }) }
     let p : PortId := .a
     let g : Reading := { kind := .bypass .a, page := 12, offsets := span 32 4, dropped := false }
     let acc : Access := acc0
     s.reading = some g ∧ g.kind = .bypass p ∧ g.dropped = false ∧ (s.port p).access = some acc ∧ s.uncarried acc.page) ∧
    (let s : State :=
         { wait (put running 2 .dirty 12 (span 32 1) (span 32 1)) .a .waitBypass acc0 none with requests := [], owner := .bypass .a, reading := some ({ kind := .bypass .a, page := 12, offsets := span 32 4, dropped := false }) }
     let p : PortId := .a
     let g : Reading := { kind := .bypass .a, page := 12, offsets := span 32 4, dropped := false }
     let acc : Access := acc0
     let i : SlotIx := 2
     s.reading = some g ∧ g.kind = .bypass p ∧ g.dropped = false ∧ (s.port p).access = some acc ∧ s.soleCarrier i
     acc.page) ∧
    (let s : State :=
         { wait running .a .waitBypass acc0 none with requests := [], owner := .bypass .a, reading := some ({ kind := .bypass .a, page := 12, offsets := span 32 4, dropped := false }) }
     let p : PortId := .a
     let g : Reading := { kind := .bypass .a, page := 12, offsets := span 32 4, dropped := false }
     let acc : Access := acc0
     s.reading = some g ∧ g.kind = .bypass p ∧ g.dropped = false ∧ (s.port p).access = some acc ∧ g.page = s.translate
     acc.page) ∧
    (let s : State :=
         { wait (put running 2 .clean 12 0xF 0) .a .waitFill acc0 (some 2) with requests := [], owner := .fill 2, reading := some ({ kind := .fill 2, page := 12, offsets := ~~~0xF, dropped := false }) }
     let p : PortId := .a
     let g : Reading := { kind := .fill 2, page := 12, offsets := ~~~0xF, dropped := false }
     let acc : Access := acc0
     let i : SlotIx := 2
     s.reading = some g ∧ g.kind = .fill i ∧ g.dropped = false ∧ s.waitersReady i ((s.slot i).present ||| g.offsets) ∧
     (s.slot i).wait p = some acc.offsets ∧ (s.port p).access = some acc ∧ s.soleCarrier i acc.page ∧ g.page =
     s.translate acc.page) ∧
    (let s : State := put running 2 .clean 12 (span 60 4) 0
     let p : PortId := .a
     let i : SlotIx := 2
     let addr : BitVec 17 := 0x33C
     let size : BitVec 2 := 2
     (s.port p).ready ∧ s.passes false addr size ∧ s.soleCarrier i (addr.toNat / 64) ∧ (s.slot i).covers addr size) := by
  dsimp only
  and_intros <;> decide

theorem witness_DeadlineExpirySealsTheSlot :
    (let i : SlotIx := 3
     let s : State := put running 3 .dirty 12 0xF 0xF
     (s.slot i).state = .dirty ∧ s.holds s.ageList .dirty) := by
  dsimp only
  and_intros <;> decide

theorem witness_FlushesAndPowerFailSealEveryDirtySlot :
    (let s : State := put (put running 3 .dirty 12 1 1) 5 .dirty 13 1 1
     s.resetN = true ∧ s.holds s.ageList .dirty ∧ s.portA.fieldsOk ∧ s.portB.fieldsOk ∧ s.flushSeen = false) ∧
    (let s : State := { put (put running 3 .dirty 12 1 1) 5 .dirty 13 1 1 with flushSeen := true }
     s.resetN = true ∧ s.holds s.ageList .dirty ∧ s.portA.fieldsOk ∧ s.portB.fieldsOk ∧ s.flushSeen = true) ∧
    (let s : State := put (put running 3 .dirty 12 1 1) 5 .dirty 13 1 1
     s.resetN = true ∧ s.holds s.ageList .dirty ∧ s.portA.fieldsOk ∧ s.portB.fieldsOk ∧ s.pfw = false) ∧
    (let s : State := { put (put running 3 .dirty 12 1 1) 5 .dirty 13 1 1 with pfw := true }
     s.resetN = true ∧ s.holds s.ageList .dirty ∧ s.portA.fieldsOk ∧ s.portB.fieldsOk ∧ s.pfw = true) := by
  dsimp only
  and_intros <;> decide

theorem witness_PageLoadLatchesNextByte :
    (let t : Time := 400
     let s : State := committing .home (attempt0 .load)
     let c : CommitRecord := record (attempt0 .load) .home
     let a : Attempt := attempt0 .load
     let k : Nat := 1
     let rest : List Nat := [2]
     (s.writer.map MapWriter.attempt = some a ∧ (s.commit ≠ none ∨ s.owner = .mapWriter) ∨ s.writer = none ∧ s.commit =
     some c ∧ c.attempt = a ∧ (c.phase = .home ∨ c.phase = .spareLoad)) ∧ a.step = .load ∧ a.toLoad = k :: rest ∧
     s.chip.programming = false ∧ (s.chip.latch = [] ∨ max s.now t < s.chip.loadedAt + Config.latchLapseMin)) ∧
    (let s : State := { committing .home (attempt0 .load) with chip := { State.reset.chip with programming := true } }
     let c : CommitRecord := record (attempt0 .load) .home
     let a : Attempt := attempt0 .load
     let k : Nat := 1
     let rest : List Nat := [2]
     (s.writer.map MapWriter.attempt = some a ∧ (s.commit ≠ none ∨ s.owner = .mapWriter) ∨ s.writer = none ∧ s.commit =
     some c ∧ c.attempt = a ∧ (c.phase = .home ∨ c.phase = .spareLoad)) ∧ a.step = .load ∧ a.toLoad = k :: rest ∧
     s.chip.programming = true) ∧
    (let s : State := mapWriting (attempt0 .load)
     let c : CommitRecord := record (attempt0 .load) .mapWrite
     let a : Attempt := attempt0 .load
     let k : Nat := 1
     let rest : List Nat := [2]
     (s.writer.map MapWriter.attempt = some a ∧ (s.commit ≠ none ∨ s.owner = .mapWriter) ∨ s.writer = none ∧ s.commit =
     some c ∧ c.attempt = a ∧ (c.phase = .home ∨ c.phase = .spareLoad)) ∧ a.step = .load ∧ a.toLoad = k :: rest) := by
  dsimp only
  and_intros <;> decide

theorem witness_LapseAndPollOfAnAttempt :
    (let s : State := { committing .home (attempt0 .lapse) with lastLoad := some 0 }
     let c : CommitRecord := record (attempt0 .lapse) .home
     let a : Attempt := attempt0 .lapse
     let l : Time := 0
     (s.writer.map MapWriter.attempt = some a ∧ (s.commit ≠ none ∨ s.owner = .mapWriter) ∨ s.writer = none ∧ s.commit =
     some c ∧ c.attempt = a ∧ (c.phase = .home ∨ c.phase = .spareLoad)) ∧ a.step = .lapse ∧ s.lastLoad = some l) ∧
    (let s : State := committing .spareLoad (attempt0 .poll)
     let c : CommitRecord := record (attempt0 .poll) .spareLoad
     let a : Attempt := attempt0 .poll
     let k : Nat := 2
     let v : Byte := 0
     (s.writer.map MapWriter.attempt = some a ∧ (s.commit ≠ none ∨ s.owner = .mapWriter) ∨ s.writer = none ∧ s.commit =
     some c ∧ c.attempt = a ∧ (c.phase = .home ∨ c.phase = .spareLoad)) ∧ a.step = .poll ∧ a.pollByte = some (k, v)) := by
  dsimp only
  and_intros <;> decide

theorem witness_ArrayStoresLatchedBytes :
    (let c : Chip := { State.reset.chip with latch := [(0, 7), (63, 9)], latchPage := 12 }
     let k : Nat := 63
     let v : Byte := 9
     let off : Nat := 1
     Memory.wf c.cells = true ∧ (c.latch.map Prod.fst).Nodup ∧ (∀ e ∈ c.latch, e.1 < 64) ∧ off < 64 ∧ (k, v) ∈ c.latch) ∧
    (let c : Chip := { State.reset.chip with latch := [(0, 7), (63, 9)], latchPage := 12 }
     let page : Nat := 12
     let off : Nat := 1
     Memory.wf c.cells = true ∧ (c.latch.map Prod.fst).Nodup ∧ (∀ e ∈ c.latch, e.1 < 64) ∧ off < 64 ∧ (page ≠ c.latchPage
     ∨ off ∉ c.latch.map Prod.fst)) ∧
    (let c : Chip := { State.reset.chip with latch := [(0, 7), (63, 9)], latchPage := 12, programming := true }
     let off : Nat := 1
     Memory.wf c.cells = true ∧ (c.latch.map Prod.fst).Nodup ∧ (∀ e ∈ c.latch, e.1 < 64) ∧ off < 64 ∧ c.programming =
     true) ∧
    (let c : Chip := { State.reset.chip with latch := [(0, 7), (63, 9)], latchPage := 12 }
     let off : Nat := 1
     Memory.wf c.cells = true ∧ (c.latch.map Prod.fst).Nodup ∧ (∀ e ∈ c.latch, e.1 < 64) ∧ off < 64 ∧ c.programming =
     false) := by
  dsimp only
  and_intros <;> decide

theorem witness_PollTimeoutPinsTheSlot :
    (let t : Time := 159999
     let s : State := committing .home (attempt0 .poll)
     let c : CommitRecord := record (attempt0 .poll) .home
     let d : Time := 160000
     s.commit = some c ∧ (s.slot c.slot).state = .committing ∧ s.writer = none ∧ c.attempt.step = .poll ∧
     c.attempt.pollDeadline = some d ∧ (c.phase = .home ∨ c.phase = .spareLoad) ∧ max s.now t < d) ∧
    (let t : Time := 160000
     let s : State := committing .home (attempt0 .poll)
     let c : CommitRecord := record (attempt0 .poll) .home
     let d : Time := 160000
     s.commit = some c ∧ (s.slot c.slot).state = .committing ∧ s.writer = none ∧ c.attempt.step = .poll ∧
     c.attempt.pollDeadline = some d ∧ d ≤ max s.now t ∧ c.phase = .home) ∧
    (let t : Time := 160000
     let s : State := committing .spareLoad (attempt0 .poll)
     let c : CommitRecord := record (attempt0 .poll) .spareLoad
     let d : Time := 160000
     s.commit = some c ∧ (s.slot c.slot).state = .committing ∧ s.writer = none ∧ c.attempt.step = .poll ∧
     c.attempt.pollDeadline = some d ∧ d ≤ max s.now t ∧ c.phase = .spareLoad) ∧
    (let t : Time := 160000
     let s : State := mapWriting (attempt0 .poll)
     let c : CommitRecord := record (attempt0 .poll) .mapWrite
     let w : MapWriter := writer0 (attempt0 .poll)
     let d : Time := 160000
     s.commit = some c ∧ (s.slot c.slot).state = .committing ∧ s.writer = some w ∧ w.attempt.step = .poll ∧
     w.attempt.pollDeadline = some d ∧ d ≤ max s.now t) ∧
    (let t : Time := 159999
     let s : State := mapWriting (attempt0 .poll)
     let c : CommitRecord := record (attempt0 .poll) .mapWrite
     let w : MapWriter := writer0 (attempt0 .poll)
     let d : Time := 160000
     s.commit = some c ∧ (s.slot c.slot).state = .committing ∧ s.writer = some w ∧ w.attempt.step = .poll ∧
     w.attempt.pollDeadline = some d ∧ max s.now t < d) := by
  dsimp only
  and_intros <;> decide

theorem witness_VerifyOnHomePageDecides :
    (let worn : List Host.Cell := [(768, 0), (769, 0), (770, 0)]
     let s : State := committing .home (attempt0 .verify)
     let c : CommitRecord := record (attempt0 .verify) .home
     let failing : OffsetSet := 0
     s.writer = none ∧ s.commit = some c ∧ c.phase = .home ∧ c.attempt.step = .verify ∧ s.failsAt worn c.attempt failing
     ∧ (s.slot c.slot).fieldsOk ∧ (s.slot c.slot).state = .committing ∧ (failing = 0 → s.holds s.ageList .dirty) ∧
     failing = 0) ∧
    (let worn : List Host.Cell := [(768, 0), (769, 0)]
     let s : State := { committing .home (attempt0 .verify) with params := { Params.default with retries := 1 } }
     let c : CommitRecord := record (attempt0 .verify) .home
     let failing : OffsetSet := 4
     s.writer = none ∧ s.commit = some c ∧ c.phase = .home ∧ c.attempt.step = .verify ∧ s.failsAt worn c.attempt failing
     ∧ (s.slot c.slot).fieldsOk ∧ (s.slot c.slot).state = .committing ∧ (failing = 0 → s.holds s.ageList .dirty) ∧
     failing ≠ 0 ∧ c.attempt.number ≤ s.params.retries) ∧
    (let worn : List Host.Cell := [(768, 0), (769, 0)]
     let s : State :=
         { committing .home (attempt0 .verify) with params := { Params.default with retries := 0 }, remap := { Remap.reset with dead := 0xFFFF } }
     let c : CommitRecord := record (attempt0 .verify) .home
     let failing : OffsetSet := 4
     s.writer = none ∧ s.commit = some c ∧ c.phase = .home ∧ c.attempt.step = .verify ∧ s.failsAt worn c.attempt failing
     ∧ (s.slot c.slot).fieldsOk ∧ (s.slot c.slot).state = .committing ∧ (failing = 0 → s.holds s.ageList .dirty) ∧
     failing ≠ 0 ∧ s.params.retries < c.attempt.number ∧ s.remap.noneFree []) ∧
    (let worn : List Host.Cell := [(768, 0), (769, 0)]
     let s : State := { committing .home (attempt0 .verify) with params := { Params.default with retries := 0 } }
     let c : CommitRecord := record (attempt0 .verify) .home
     let failing : OffsetSet := 4
     s.writer = none ∧ s.commit = some c ∧ c.phase = .home ∧ c.attempt.step = .verify ∧ s.failsAt worn c.attempt failing
     ∧ (s.slot c.slot).fieldsOk ∧ (s.slot c.slot).state = .committing ∧ (failing = 0 → s.holds s.ageList .dirty) ∧
     failing ≠ 0 ∧ s.params.retries < c.attempt.number ∧ ¬s.remap.noneFree [] ∧ (s.slot c.slot).present ≠ fullSet) ∧
    (let worn : List Host.Cell := [(768, 0), (769, 0)]
     let s : State :=
         { (committing .home (attempt0 .verify)).modSlot 4 fun x => { x with present := fullSet } with params := { Params.default with retries := 0 } }
     let c : CommitRecord := record (attempt0 .verify) .home
     let failing : OffsetSet := 4
     let sp : SpareIx := 0
     s.writer = none ∧ s.commit = some c ∧ c.phase = .home ∧ c.attempt.step = .verify ∧ s.failsAt worn c.attempt failing
     ∧ (s.slot c.slot).fieldsOk ∧ (s.slot c.slot).state = .committing ∧ (failing = 0 → s.holds s.ageList .dirty) ∧
     failing ≠ 0 ∧ s.params.retries < c.attempt.number ∧ s.remap.lowestFree c.newlyDead sp ∧ c.newlyDead = [] ∧ (s.slot
     c.slot).present = fullSet ∧ s.waitersReady c.slot fullSet) ∧
    (let worn : List Host.Cell := [(768, 0), (769, 0)]
     let s : State :=
         { wait ((committing .home (attempt0 .verify)).modSlot 4 fun x => { x with present := fullSet }) .a .waitFill acc0 (some 4) with params := { Params.default with retries := 0 } }
     let c : CommitRecord := record (attempt0 .verify) .home
     let failing : OffsetSet := 4
     let sp : SpareIx := 0
     s.writer = none ∧ s.commit = some c ∧ c.phase = .home ∧ c.attempt.step = .verify ∧ s.failsAt worn c.attempt failing
     ∧ (s.slot c.slot).fieldsOk ∧ (s.slot c.slot).state = .committing ∧ (failing = 0 → s.holds s.ageList .dirty) ∧
     failing ≠ 0 ∧ s.params.retries < c.attempt.number ∧ s.remap.lowestFree c.newlyDead sp ∧ c.newlyDead = [] ∧ (s.slot
     c.slot).present = fullSet ∧ s.waitersReady c.slot fullSet) := by
  dsimp only
  and_intros <;> decide

theorem witness_BackfillFillsTheSlotForItsSpare :
    (let s : State := { committing .retireBackfill (attempt0 .verify) with commit := some backfilling }
     let c : CommitRecord := backfilling
     let sp : SpareIx := 0
     s.commit = some c ∧ c.phase = .retireBackfill ∧ (s.slot c.slot).state = .committing ∧ s.remap.lowestFree c.newlyDead
     sp ∧ s.waitersReady c.slot ((s.slot c.slot).present ||| c.backfill)) := by
  dsimp only
  and_intros <;> decide

theorem witness_VerifyOnSpareDecides :
    (let worn : List Host.Cell := [(768, 0), (769, 0), (770, 0)]
     let s : State :=
         { committing .spareLoad (attempt0 .verify) with commit := some spareRecord, remap := table0, params := { Params.default with retries := 0 } }
     let c : CommitRecord := spareRecord
     let failing : OffsetSet := 0
     let sp : SpareIx := 4
     s.writer = none ∧ s.commit = some c ∧ c.phase = .spareLoad ∧ c.spare = some sp ∧ c.attempt.step = .verify ∧
     s.failsAt worn c.attempt failing ∧ s.remap.ok ∧ failing = 0 ∧ (∀ x ∈ s.remap.live, x.page ≠ c.page)) ∧
    (let worn : List Host.Cell := [(768, 0), (769, 0), (770, 0)]
     let s : State :=
         { committing .spareLoad (attempt0 .verify) with commit := some spareRecord, remap := { table0 with live := [{ page := 12, spare := 3 }] }, params := { Params.default with retries := 0 } }
     let c : CommitRecord := spareRecord
     let failing : OffsetSet := 0
     let sp : SpareIx := 4
     let e : RemapEntry := { page := 12, spare := 3 }
     s.writer = none ∧ s.commit = some c ∧ c.phase = .spareLoad ∧ c.spare = some sp ∧ c.attempt.step = .verify ∧
     s.failsAt worn c.attempt failing ∧ s.remap.ok ∧ failing = 0 ∧ e ∈ s.remap.live ∧ e.page = c.page) ∧
    (let worn : List Host.Cell := [(768, 0), (769, 0)]
     let s : State :=
         { committing .spareLoad (attempt0 .verify) with commit := some spareRecord, remap := table0, params := { Params.default with retries := 1 } }
     let c : CommitRecord := spareRecord
     let failing : OffsetSet := 4
     let sp : SpareIx := 4
     s.writer = none ∧ s.commit = some c ∧ c.phase = .spareLoad ∧ c.spare = some sp ∧ c.attempt.step = .verify ∧
     s.failsAt worn c.attempt failing ∧ s.remap.ok ∧ failing ≠ 0 ∧ c.attempt.number ≤ s.params.retries) ∧
    (let worn : List Host.Cell := [(768, 0), (769, 0)]
     let s : State :=
         { committing .spareLoad (attempt0 .verify) with commit := some spareRecord, remap := table0, params := { Params.default with retries := 0 } }
     let c : CommitRecord := spareRecord
     let failing : OffsetSet := 4
     let sp : SpareIx := 4
     let next : SpareIx := 5
     let dead := { c with newlyDead := c.newlyDead ++ [sp] }
     s.writer = none ∧ s.commit = some c ∧ c.phase = .spareLoad ∧ c.spare = some sp ∧ c.attempt.step = .verify ∧
     s.failsAt worn c.attempt failing ∧ s.remap.ok ∧ failing ≠ 0 ∧ s.params.retries < c.attempt.number ∧
     s.remap.lowestFree dead.newlyDead next) ∧
    (let worn : List Host.Cell := [(768, 0), (769, 0)]
     let s : State :=
         { committing .spareLoad (attempt0 .verify) with commit := some spareRecord, remap := { Remap.reset with dead := 0xFFEF }, params := { Params.default with retries := 0 } }
     let c : CommitRecord := spareRecord
     let failing : OffsetSet := 4
     let sp : SpareIx := 4
     let dead := { c with newlyDead := c.newlyDead ++ [sp] }
     s.writer = none ∧ s.commit = some c ∧ c.phase = .spareLoad ∧ c.spare = some sp ∧ c.attempt.step = .verify ∧
     s.failsAt worn c.attempt failing ∧ s.remap.ok ∧ failing ≠ 0 ∧ s.params.retries < c.attempt.number ∧ s.remap.noneFree
     dead.newlyDead) := by
  dsimp only
  and_intros <;> decide

theorem witness_VerifyOnMapCopyEndsTheWrite :
    (let worn : List Host.Cell := [(768, 0), (769, 0), (770, 0)]
     let s : State := mapWriting (attempt0 .verify)
     let c : CommitRecord := record (attempt0 .verify) .mapWrite
     let failing : OffsetSet := 0
     let w : MapWriter := writer0 (attempt0 .verify)
     s.writer = some w ∧ s.commit = some c ∧ w.attempt.step = .verify ∧ s.failsAt worn w.attempt failing ∧ (s.slot
     c.slot).fieldsOk ∧ (s.slot c.slot).state = .committing ∧ (w.purpose = .retire ∨ w.purpose = .deadOnly) ∧ s.holds
     s.ageList .dirty ∧ failing = 0) ∧
    (let worn : List Host.Cell := [(768, 0), (769, 0)]
     let s : State := { mapWriting (attempt0 .verify) with params := { Params.default with retries := 1 } }
     let c : CommitRecord := record (attempt0 .verify) .mapWrite
     let failing : OffsetSet := 4
     let w : MapWriter := writer0 (attempt0 .verify)
     s.writer = some w ∧ s.commit = some c ∧ w.attempt.step = .verify ∧ s.failsAt worn w.attempt failing ∧ (s.slot
     c.slot).fieldsOk ∧ (s.slot c.slot).state = .committing ∧ (w.purpose = .retire ∨ w.purpose = .deadOnly) ∧ s.holds
     s.ageList .dirty ∧ failing ≠ 0 ∧ w.attempt.number ≤ s.params.retries) ∧
    (let worn : List Host.Cell := [(768, 0), (769, 0)]
     let s : State := { mapWriting (attempt0 .verify) with params := { Params.default with retries := 0 } }
     let c : CommitRecord := record (attempt0 .verify) .mapWrite
     let failing : OffsetSet := 4
     let w : MapWriter := writer0 (attempt0 .verify)
     s.writer = some w ∧ s.commit = some c ∧ w.attempt.step = .verify ∧ s.failsAt worn w.attempt failing ∧ (s.slot
     c.slot).fieldsOk ∧ (s.slot c.slot).state = .committing ∧ (w.purpose = .retire ∨ w.purpose = .deadOnly) ∧ s.holds
     s.ageList .dirty ∧ failing ≠ 0 ∧ s.params.retries < w.attempt.number) := by
  dsimp only
  and_intros <;> decide

theorem witness_FormatRunsAndEnds :
    (let s : State := degraded .mapInvalid
     let w : MapWriter := { writer0 (attempt0 .load) with purpose := .format0 }
     s.commit = none ∧ (w.purpose = .format0 ∨ w.purpose = .format1) ∧ (s.mgmt.long = .mapFormat ∨ s.mgmt.long = .none) ∧
     s.resetN = true ∧ s.mgmt.long = .none ∧ s.store.state = .degraded ∧ s.store.cause = some .mapInvalid) ∧
    (let worn : List Host.Cell := [(768, 0), (769, 0), (770, 0)]
     let s : State := { formatting with writer := some ({ writer0 (attempt0 .verify) with purpose := .format0 }) }
     let w : MapWriter := { writer0 (attempt0 .verify) with purpose := .format0 }
     let failing : OffsetSet := 0
     let verified := s.writer = some w ∧ s.owner = .mapWriter ∧ w.attempt.step = .verify ∧ s.failsAt worn w.attempt failing
     s.commit = none ∧ (w.purpose = .format0 ∨ w.purpose = .format1) ∧ (s.mgmt.long = .mapFormat ∨ s.mgmt.long = .none) ∧
     verified ∧ failing = 0 ∧ w.purpose = .format0) ∧
    (let worn : List Host.Cell := [(768, 0), (769, 0), (770, 0)]
     let s : State := { formatting with writer := some ({ writer0 (attempt0 .verify) with purpose := .format1 }) }
     let w : MapWriter := { writer0 (attempt0 .verify) with purpose := .format1 }
     let failing : OffsetSet := 0
     let verified := s.writer = some w ∧ s.owner = .mapWriter ∧ w.attempt.step = .verify ∧ s.failsAt worn w.attempt failing
     s.commit = none ∧ (w.purpose = .format0 ∨ w.purpose = .format1) ∧ (s.mgmt.long = .mapFormat ∨ s.mgmt.long = .none) ∧
     verified ∧ failing = 0 ∧ w.purpose = .format1) ∧
    (let worn : List Host.Cell := [(768, 0), (769, 0)]
     let s : State :=
         { formatting with writer := some ({ writer0 (attempt0 .verify) with purpose := .format0 }), params := { Params.default with retries := 1 } }
     let w : MapWriter := { writer0 (attempt0 .verify) with purpose := .format0 }
     let failing : OffsetSet := 4
     let verified := s.writer = some w ∧ s.owner = .mapWriter ∧ w.attempt.step = .verify ∧ s.failsAt worn w.attempt failing
     s.commit = none ∧ (w.purpose = .format0 ∨ w.purpose = .format1) ∧ (s.mgmt.long = .mapFormat ∨ s.mgmt.long = .none) ∧
     verified ∧ failing ≠ 0 ∧ w.attempt.number ≤ s.params.retries) ∧
    (let worn : List Host.Cell := [(768, 0), (769, 0)]
     let s : State :=
         { formatting with writer := some ({ writer0 (attempt0 .verify) with purpose := .format0 }), params := { Params.default with retries := 0 } }
     let w : MapWriter := { writer0 (attempt0 .verify) with purpose := .format0 }
     let failing : OffsetSet := 4
     let verified := s.writer = some w ∧ s.owner = .mapWriter ∧ w.attempt.step = .verify ∧ s.failsAt worn w.attempt failing
     s.commit = none ∧ (w.purpose = .format0 ∨ w.purpose = .format1) ∧ (s.mgmt.long = .mapFormat ∨ s.mgmt.long = .none) ∧
     verified ∧ failing ≠ 0 ∧ s.params.retries < w.attempt.number) ∧
    (let t : Time := 160000
     let s : State := { formatting with writer := some ({ writer0 (attempt0 .poll) with purpose := .format1 }) }
     let w : MapWriter := { writer0 (attempt0 .poll) with purpose := .format1 }
     let d : Time := 160000
     s.commit = none ∧ (w.purpose = .format0 ∨ w.purpose = .format1) ∧ (s.mgmt.long = .mapFormat ∨ s.mgmt.long = .none) ∧
     s.writer = some w ∧ s.owner = .mapWriter ∧ w.attempt.step = .poll ∧ w.attempt.pollDeadline = some d ∧ d ≤ max s.now
     t) := by
  dsimp only
  and_intros <;> decide

theorem witness_StartUpHoldAndMapLoadGrant :
    (let t : Time := 1600
     let s : State :=
         { State.reset with store := { State.reset.store with phase := some .quietWait, holdDeadline := none, quiet := 1600 } }
     s.resetN = true ∧ s.store.state = .starting ∧ s.store.phase = some .quietWait ∧ s.store.quiet ≤ max s.now t ∧
     s.reading = none) ∧
    (let t : Time := 1600
     let s : State :=
         { State.reset with store := { State.reset.store with phase := some .quietWait, holdDeadline := none, quiet := 1600 }, reading := some { kind := .mapRead, page := 254, offsets := 0, dropped := true } }
     s.resetN = true ∧ s.store.state = .starting ∧ s.store.phase = some .quietWait ∧ s.store.quiet ≤ max s.now t) ∧
    (let t : Time := 1599
     let s : State :=
         { State.reset with store := { State.reset.store with phase := some .quietWait, holdDeadline := none, quiet := 1600 } }
     max s.now t < s.store.quiet) ∧
    (let s : State := State.reset
     let d : Time := 100000
     s.store.phase = some .hold ∧ s.store.holdDeadline = some d) ∧
    (let s : State := { loading with loader := some { copy0 := List.replicate 0 0xFF, copy1 := List.replicate 0 0xFF } }
     let l : MapLoader := { copy0 := List.replicate 0 0xFF, copy1 := List.replicate 0 0xFF }
     s.pending = [] ∧ s.loader = some l ∧ l.copy0.length < 64 ∧ l.copy1 = []) ∧
    (let s : State := { loading with loader := some { copy0 := List.replicate 63 0xFF, copy1 := List.replicate 0 0xFF } }
     let l : MapLoader := { copy0 := List.replicate 63 0xFF, copy1 := List.replicate 0 0xFF }
     s.pending = [] ∧ s.loader = some l ∧ l.copy0.length < 64 ∧ l.copy1 = []) ∧
    (let s : State := { loading with loader := some { copy0 := List.replicate 64 0xFF, copy1 := List.replicate 0 0xFF } }
     let l : MapLoader := { copy0 := List.replicate 64 0xFF, copy1 := List.replicate 0 0xFF }
     s.pending = [] ∧ s.loader = some l ∧ l.copy0.length = 64 ∧ l.copy1.length < 63) ∧
    (let s : State := { loading with loader := some { copy0 := List.replicate 64 0xFF, copy1 := List.replicate 62 0xFF } }
     let l : MapLoader := { copy0 := List.replicate 64 0xFF, copy1 := List.replicate 62 0xFF }
     s.pending = [] ∧ s.loader = some l ∧ l.copy0.length = 64 ∧ l.copy1.length < 63) ∧
    (let s : State := { loading with loader := some { copy0 := List.replicate 64 0xFF, copy1 := List.replicate 63 0xFF } }
     let l : MapLoader := { copy0 := List.replicate 64 0xFF, copy1 := List.replicate 63 0xFF }
     s.pending = [] ∧ s.loader = some l ∧ l.copy0.length = 64 ∧ l.copy1.length = 63) := by
  dsimp only
  and_intros <;> decide

theorem witness_MapLoadSelectsACopy :
    (let worn : List Host.Cell := []
     let s : State := { State.reset with owner := .mapLoader, chip := { State.reset.chip with cells := copy1 } }
     let t0 : CopyTable := { live := [], dead := 0, sequence := 0 }
     let t1 : CopyTable := { live := [], dead := 0, sequence := 1 }
     let n := pageCount s.capacity
     let l := s.loader.getD { copy0 := [], copy1 := [] }
     let bytes : Nat → List Byte := fun page =>
       let held := if page = n - 2 then l.copy0 else l.copy1
       held ++ ((List.range 64).drop held.length).map fun k => s.reads worn page k
     let usable : Nat → CopyTable → Prop := fun page table =>
       bytes page = List.replicate 64 0xFF ∧ table = { live := [], dead := 0, sequence := 0 } ∨
         bytes page ≠ List.replicate 64 0xFF ∧ rejection (n - 18) (bytes page) = none ∧ table = copyTable (bytes page)
     let newer1 := 1 ≤ (t1.sequence - t0.sequence).toNat ∧ (t1.sequence - t0.sequence).toNat ≤ 32767
     s.owner = .mapLoader ∧ (∀ l ∈ s.loader, l.copy0.length ≤ 64 ∧ l.copy1.length ≤ 64) ∧ usable (n - 2) t0 ∧ usable (n -
     1) t1 ∧ newer1) ∧
    (let worn : List Host.Cell := []
     let s : State := { State.reset with owner := .mapLoader, chip := { State.reset.chip with cells := [] } }
     let t0 : CopyTable := { live := [], dead := 0, sequence := 0 }
     let t1 : CopyTable := { live := [], dead := 0, sequence := 0 }
     let n := pageCount s.capacity
     let l := s.loader.getD { copy0 := [], copy1 := [] }
     let bytes : Nat → List Byte := fun page =>
       let held := if page = n - 2 then l.copy0 else l.copy1
       held ++ ((List.range 64).drop held.length).map fun k => s.reads worn page k
     let usable : Nat → CopyTable → Prop := fun page table =>
       bytes page = List.replicate 64 0xFF ∧ table = { live := [], dead := 0, sequence := 0 } ∨
         bytes page ≠ List.replicate 64 0xFF ∧ rejection (n - 18) (bytes page) = none ∧ table = copyTable (bytes page)
     let newer1 := 1 ≤ (t1.sequence - t0.sequence).toNat ∧ (t1.sequence - t0.sequence).toNat ≤ 32767
     s.owner = .mapLoader ∧ (∀ l ∈ s.loader, l.copy0.length ≤ 64 ∧ l.copy1.length ≤ 64) ∧ usable (n - 2) t0 ∧ usable (n -
     1) t1 ∧ ¬newer1) ∧
    (let worn : List Host.Cell := []
     let s : State := { loading with loader := some { copy0 := List.replicate 64 0xFF, copy1 := [1] } }
     let t0 : CopyTable := { live := [], dead := 0, sequence := 0 }
     let r1 : Rejection := .marker
     let n := pageCount s.capacity
     let l := s.loader.getD { copy0 := [], copy1 := [] }
     let bytes : Nat → List Byte := fun page =>
       let held := if page = n - 2 then l.copy0 else l.copy1
       held ++ ((List.range 64).drop held.length).map fun k => s.reads worn page k
     let usable : Nat → CopyTable → Prop := fun page table =>
       bytes page = List.replicate 64 0xFF ∧ table = { live := [], dead := 0, sequence := 0 } ∨
         bytes page ≠ List.replicate 64 0xFF ∧ rejection (n - 18) (bytes page) = none ∧ table = copyTable (bytes page)
     let bad : Nat → Rejection → Prop := fun page r =>
       bytes page ≠ List.replicate 64 0xFF ∧ rejection (n - 18) (bytes page) = some r
     s.owner = .mapLoader ∧ (∀ l ∈ s.loader, l.copy0.length ≤ 64 ∧ l.copy1.length ≤ 64) ∧ usable (n - 2) t0 ∧ bad (n - 1)
     r1) ∧
    (let worn : List Host.Cell := []
     let s : State := { State.reset with owner := .mapLoader, chip := { State.reset.chip with cells := [(16256, 1)] } }
     let t1 : CopyTable := { live := [], dead := 0, sequence := 0 }
     let r0 : Rejection := .marker
     let n := pageCount s.capacity
     let l := s.loader.getD { copy0 := [], copy1 := [] }
     let bytes : Nat → List Byte := fun page =>
       let held := if page = n - 2 then l.copy0 else l.copy1
       held ++ ((List.range 64).drop held.length).map fun k => s.reads worn page k
     let usable : Nat → CopyTable → Prop := fun page table =>
       bytes page = List.replicate 64 0xFF ∧ table = { live := [], dead := 0, sequence := 0 } ∨
         bytes page ≠ List.replicate 64 0xFF ∧ rejection (n - 18) (bytes page) = none ∧ table = copyTable (bytes page)
     let bad : Nat → Rejection → Prop := fun page r =>
       bytes page ≠ List.replicate 64 0xFF ∧ rejection (n - 18) (bytes page) = some r
     s.owner = .mapLoader ∧ (∀ l ∈ s.loader, l.copy0.length ≤ 64 ∧ l.copy1.length ≤ 64) ∧ bad (n - 2) r0 ∧ usable (n - 1)
     t1) ∧
    (let worn : List Host.Cell := []
     let s : State :=
         { State.reset with owner := .mapLoader, chip := { State.reset.chip with cells := [(16256, 1), (16320, 1)] } }
     let r0 : Rejection := .marker
     let r1 : Rejection := .marker
     let n := pageCount s.capacity
     let l := s.loader.getD { copy0 := [], copy1 := [] }
     let bytes : Nat → List Byte := fun page =>
       let held := if page = n - 2 then l.copy0 else l.copy1
       held ++ ((List.range 64).drop held.length).map fun k => s.reads worn page k
     let bad : Nat → Rejection → Prop := fun page r =>
       bytes page ≠ List.replicate 64 0xFF ∧ rejection (n - 18) (bytes page) = some r
     s.owner = .mapLoader ∧ (∀ l ∈ s.loader, l.copy0.length ≤ 64 ∧ l.copy1.length ≤ 64) ∧ bad (n - 2) r0 ∧ bad (n - 1) r1) := by
  refine ⟨⟨rfl, ?_, .inl ?_, .inr ?_, ?_⟩, ⟨rfl, ?_, .inl ?_, .inl ?_, ?_⟩, ⟨rfl, ?_, .inl ?_, ?_⟩, ⟨rfl, ?_, ?_, .inl ?_⟩, rfl, ?_, ?_, ?_⟩
  case refine_3 => exact copy1_usable _ (by decide)
  all_goals decide

theorem witness_MapRecordLoadsBackAsItsTable :
    (let r : Remap := table0
     let logical : Nat := 91
     r.ok ∧ logical ≤ 65536 ∧ (∀ e ∈ r.live, e.page < logical)) ∧
    (let r : Remap :=
         { live := (List.finRange 16).map fun k => { page := 15 - k.val, spare := k }, dead := 0, copy := none, sequence := none }
     let logical : Nat := 16
     r.ok ∧ logical ≤ 65536 ∧ (∀ e ∈ r.live, e.page < logical)) ∧
    (let r : Remap := { Remap.reset with dead := 0xFFFF }
     let logical : Nat := 0
     r.ok ∧ logical ≤ 65536 ∧ (∀ e ∈ r.live, e.page < logical)) := by
  dsimp only
  and_intros <;> decide

theorem witness_PinResetFall :
    (let s : State := wait running .a .waitBypass acc0 none
     s.resetN = true) := by
  dsimp only
  and_intros <;> decide

theorem witness_PinResetRise :
    (let s : State :=
         { State.reset with resetN := false, driven := false, store := { State.reset.store with phase := some .quietWait, holdDeadline := none } }
     s.store.state = .starting ∧ s.store.phase = some .quietWait ∧ s.reading = none ∧ s.resetN = false) ∧
    (let s : State :=
         { State.reset with resetN := true, driven := false, store := { State.reset.store with phase := some .quietWait, holdDeadline := none } }
     s.store.state = .starting ∧ s.store.phase = some .quietWait ∧ s.reading = none ∧ s.resetN = true) ∧
    (let s : State :=
         { State.reset with resetN := false, driven := false, store := { State.reset.store with phase := some .quietWait, holdDeadline := none } }
     s.store.state = .starting ∧ s.store.phase = some .quietWait ∧ s.reading = none ∧ s.condition ≠ .loading) := by
  dsimp only
  and_intros <;> decide

theorem witness_BusConditionsEndWrites :
    (let code : Byte := 3
     let args : List Byte := [5, 1, 0]
     let s : State :=
         { put (put running 3 .dirty 12 1 1) 5 .dirty 13 1 1 with mgmt := { MgmtPort.reset with bus := .receiving, received := [3, 5, 1, 0], overflow := false, gcByte := none } }
     s.resetN = true ∧ s.holds s.ageList .dirty ∧ s.mgmt.bus = .receiving ∧ s.mgmt.received = code :: args ∧
     s.mgmt.overflow = false ∧ args.length ≤ 3) ∧
    (let code : Byte := 3
     let args : List Byte := [5, 1, 0]
     let s : State :=
         { put (put running 3 .dirty 12 1 1) 5 .dirty 13 1 1 with mgmt := { MgmtPort.reset with bus := .receiving, received := [3, 5, 1, 0], overflow := true, gcByte := none } }
     s.resetN = true ∧ s.holds s.ageList .dirty ∧ s.mgmt.bus = .receiving ∧ s.mgmt.received = code :: args ∧
     s.mgmt.overflow = true) ∧
    (let s : State :=
         { put (put running 3 .dirty 12 1 1) 5 .dirty 13 1 1 with mgmt := { MgmtPort.reset with bus := .receiving, received := [], overflow := false, gcByte := none } }
     s.resetN = true ∧ s.holds s.ageList .dirty ∧ s.mgmt.bus = .receiving ∧ s.mgmt.received = []) ∧
    (let s : State :=
         { put (put running 3 .dirty 12 1 1) 5 .dirty 13 1 1 with mgmt := { MgmtPort.reset with bus := .generalCall, received := [], overflow := false, gcByte := some 4 } }
     s.resetN = true ∧ s.holds s.ageList .dirty ∧ s.mgmt.bus = .generalCall) ∧
    (let s : State :=
         { put (put running 3 .dirty 12 1 1) 5 .dirty 13 1 1 with mgmt := { MgmtPort.reset with bus := .ignoring, received := [], overflow := false, gcByte := none } }
     s.resetN = true ∧ s.holds s.ageList .dirty ∧ (s.mgmt.bus = .idle ∨ s.mgmt.bus = .transmitting ∨ s.mgmt.bus =
     .ignoring)) := by
  dsimp only
  and_intros <;> decide

theorem witness_AddressAndGeneralCallBytes :
    (let s : State := { running with mgmt := { MgmtPort.reset with addressDue := true } }
     s.resetN = true ∧ s.mgmt.addressDue = true) ∧
    (let s : State := running
     s.resetN = true ∧ s.mgmt.addressDue = false) ∧
    (let s : State :=
         { put (put running 3 .dirty 12 1 1) 5 .dirty 13 1 1 with mgmt := { MgmtPort.reset with bus := .generalCall, received := [], overflow := false, gcByte := none } }
     s.resetN = true ∧ s.mgmt.bus = .generalCall) := by
  dsimp only
  and_intros <;> decide

theorem witness_DataBytesAreKeptUpToFour :
    (let s : State :=
         { put (put running 3 .dirty 12 1 1) 5 .dirty 13 1 1 with mgmt := { MgmtPort.reset with bus := .receiving, received := [3, 5, 1], overflow := false, gcByte := none } }
     let q := s.mgmt
     q.bus = .receiving) ∧
    (let s : State :=
         { put (put running 3 .dirty 12 1 1) 5 .dirty 13 1 1 with mgmt := { MgmtPort.reset with bus := .transmitting, received := [], overflow := false, gcByte := none } }
     let q := s.mgmt
     q.bus = .transmitting) := by
  dsimp only
  and_intros <;> decide

theorem witness_CommandRefusalsInOrder :
    (let args : List Byte := [1, 2, 3, 4]
     let s : State := running
     s.resetN = true ∧ 3 < args.length) ∧
    (let code : Byte := 0x0F
     let args : List Byte := [1, 2, 3]
     let s : State := running
     let known := 1 ≤ code.toNat ∧ code.toNat ≤ 14
     s.resetN = true ∧ args.length ≤ 3 ∧ ¬known) ∧
    (let code : Byte := 3
     let args : List Byte := [1, 2]
     let s : State := running
     let known := 1 ≤ code.toNat ∧ code.toNat ≤ 14
     s.resetN = true ∧ args.length ≤ 3 ∧ known ∧ args.length ≠ argumentsOf code) ∧
    (let code : Byte := 7
     let args : List Byte := []
     let s : State := { running with mgmt := { MgmtPort.reset with long := .restart } }
     let known := 1 ≤ code.toNat ∧ code.toNat ≤ 14
     s.resetN = true ∧ known ∧ args.length = argumentsOf code ∧ s.refusesLong code) ∧
    (let code : Byte := 13
     let args : List Byte := [0x20]
     let s : State := running
     let a := args.headD 0
     let known := 1 ≤ code.toNat ∧ code.toNat ≤ 14
     s.resetN = true ∧ known ∧ args.length = argumentsOf code ∧ ¬s.refusesLong code ∧ argumentRefused code a) ∧
    (let code : Byte := 13
     let args : List Byte := [0x1F]
     let s : State := running
     let a := args.headD 0
     let known := 1 ≤ code.toNat ∧ code.toNat ≤ 14
     s.resetN = true ∧ known ∧ args.length = argumentsOf code ∧ ¬s.refusesLong code ∧ ¬argumentRefused code a ∧
     s.stateRefuses code a) ∧
    (let code : Byte := 3
     let args : List Byte := [1, 1, 1]
     let s : State := running
     let a := args.headD 0
     let v := (args.getD 1 0).toNat + 256 * (args.getD 2 0).toNat
     let known := 1 ≤ code.toNat ∧ code.toNat ≤ 14
     s.resetN = true ∧ known ∧ args.length = argumentsOf code ∧ ¬s.refusesLong code ∧ ¬argumentRefused code a ∧
     ¬s.stateRefuses code a ∧ code = 3 ∧ valueRefused a v) := by
  dsimp only
  and_intros <;> decide

theorem witness_ReadingCommandsReturnTheirRecords :
    (let a : Byte := 31
     let s : State := { running with remap := table0 }
     s.resetN = true ∧ a.toNat < 32) ∧
    (let a : Byte := 1
     let s : State := { running with remap := table0 }
     let e : RemapEntry := { page := 90, spare := 2 }
     s.resetN = true ∧ a.toNat < 16 ∧ s.remap.live[a.toNat]? = some e) ∧
    (let a : Byte := 2
     let s : State := { running with remap := table0 }
     s.resetN = true ∧ a.toNat < 16 ∧ s.remap.live.length ≤ a.toNat) ∧
    (let a : Byte := 1
     let s : State := { running with remap := table0 }
     s.resetN = true ∧ a.toNat < 2) := by
  dsimp only
  and_intros <;> decide

theorem witness_ConfigurationReadAndSet :
    (let a : Byte := 6
     let lo : Byte := 1
     let hi : Byte := 0
     let s : State := put (put running 3 .dirty 12 1 1) 5 .dirty 13 1 1
     let v := lo.toNat + 256 * hi.toNat
     s.resetN = true ∧ 1 ≤ a.toNat ∧ a.toNat ≤ 6 ∧ s.holds s.ageList .dirty ∧ ¬valueRefused a v) ∧
    (let a : Byte := 3
     let lo : Byte := 4
     let hi : Byte := 0
     let s : State := put (put running 3 .dirty 12 1 1) 5 .dirty 13 1 1
     let v := lo.toNat + 256 * hi.toNat
     s.resetN = true ∧ 1 ≤ a.toNat ∧ a.toNat ≤ 6 ∧ s.holds s.ageList .dirty ∧ ¬valueRefused a v) := by
  dsimp only
  and_intros <;> decide

theorem witness_LogReadReturnsOldestUnread :
    (let s : State :=
         { running with log := { records := [{ record0 with read := true }, record0, record0], next := 3, unread := 2 } }
     let before : List FaultRecord := [{ record0 with read := true }]
     let r : FaultRecord := record0
     let after : List FaultRecord := [record0]
     s.resetN = true ∧ s.log.records = before ++ r :: after ∧ (∀ q ∈ before, q.read = true) ∧ r.read = false) ∧
    (let s : State := running
     s.resetN = true ∧ (∀ q ∈ s.log.records, q.read = true)) := by
  dsimp only
  and_intros <;> decide

theorem witness_QuiesceSealsAndDrains :
    (let s : State := put (put running 3 .dirty 12 1 1) 5 .dirty 13 1 1
     s.resetN = true ∧ s.store.state = .running ∧ s.mgmt.long = .none ∧ s.holds s.ageList .dirty) := by
  dsimp only
  and_intros <;> decide

theorem witness_ResumeInvalidatesCleanBytes :
    (let s : State :=
         { put (put running 0 .dirty 12 3 1) 1 .clean 13 1 0 with store := { running.store with state := .quiesced }, driven := false }
     s.resetN = true ∧ s.store.state = .quiesced ∧ s.driven = false ∧ s.mgmt.long = .none ∧ s.collectionsOk ∧
     s.freeAscending ∧ (∀ i : SlotIx, (s.slot i).setsOk ∧ (s.slot i).idle) ∧ s.commit = none ∧ s.store.cause = none ∧
     s.commitOk) := by
  dsimp only
  and_intros <;> decide

theorem witness_RestartDropsAllButTheRecords :
    (let s : State := put (put running 3 .dirty 12 1 1) 5 .dirty 13 1 1
     s.resetN = true ∧ (s.mgmt.long = .none ∨ s.mgmt.long = .quiesce) ∧ s.portA.state = .idle ∧ s.portB.state = .idle) ∧
    (let s : State := wait packed .a .waitSlot write0 none
     let p : PortId := .a
     let acc : Access := write0
     let h := s.port p
     let idle := (p = .a → s.portB.state = .idle) ∧ (p = .b → s.portA.state = .idle)
     s.resetN = true ∧ (s.mgmt.long = .none ∨ s.mgmt.long = .quiesce) ∧ idle ∧ h.state = .waitSlot ∧ h.access = some acc
     ∧ acc.offsets ≠ 0) ∧
    (let s : State := wait (put running 2 .clean 12 0xF 0) .a .waitFill acc0 (some 2)
     let p : PortId := .a
     let acc : Access := acc0
     let h := s.port p
     let idle := (p = .a → s.portB.state = .idle) ∧ (p = .b → s.portA.state = .idle)
     s.resetN = true ∧ (s.mgmt.long = .none ∨ s.mgmt.long = .quiesce) ∧ idle ∧ (h.state = .waitFill ∨ h.state =
     .waitBypass) ∧ h.access = some acc ∧ h.stall ≠ none ∧ acc.offsets ≠ 0) ∧
    (let s : State :=
         wait (wait running .a .waitSlot write0 none) .b .waitBypass { acc0 with addr := 0x340, order := 1 } none
     let p : PortId := .a
     let acc : Access := write0
     let q : PortId := .b
     let acc2 : Access := { acc0 with addr := 0x340, order := 1 }
     let earlier := (p = .a → acc.order ≤ acc2.order) ∧ (p = .b → acc.order < acc2.order)
     s.resetN = true ∧ (s.mgmt.long = .none ∨ s.mgmt.long = .quiesce) ∧ p ≠ q ∧ earlier ∧ (s.port p).state ≠ .idle ∧
     (s.port q).state ≠ .idle ∧ (s.port p).access = some acc ∧ (s.port q).access = some acc2 ∧ (s.port p).stall ≠ none ∧
     (s.port q).stall ≠ none ∧ acc.offsets ≠ 0 ∧ acc2.offsets ≠ 0 ∧ acc2.page ≠ acc.page) ∧
    (let s : State :=
         wait (wait running .b .waitBypass acc0 none) .a .waitBypass ({ acc0 with addr := 0x340, order := 1 }) none
     let p : PortId := .b
     let acc : Access := acc0
     let q : PortId := .a
     let acc2 : Access := { acc0 with addr := 0x340, order := 1 }
     let earlier := (p = .a → acc.order ≤ acc2.order) ∧ (p = .b → acc.order < acc2.order)
     s.resetN = true ∧ (s.mgmt.long = .none ∨ s.mgmt.long = .quiesce) ∧ p ≠ q ∧ earlier ∧ (s.port p).state ≠ .idle ∧
     (s.port q).state ≠ .idle ∧ (s.port p).access = some acc ∧ (s.port q).access = some acc2 ∧ (s.port p).stall ≠ none ∧
     (s.port q).stall ≠ none ∧ acc.offsets ≠ 0 ∧ acc2.offsets ≠ 0 ∧ acc2.page ≠ acc.page) ∧
    (let s : State := wait (wait running .a .waitBypass acc0 none) .b .waitSlot ({ write0 with order := 1 }) none
     let p : PortId := .a
     let acc : Access := acc0
     let q : PortId := .b
     let acc2 : Access := { write0 with order := 1 }
     let earlier := (p = .a → acc.order ≤ acc2.order) ∧ (p = .b → acc.order < acc2.order)
     s.resetN = true ∧ (s.mgmt.long = .none ∨ s.mgmt.long = .quiesce) ∧ p ≠ q ∧ earlier ∧ (s.port p).state ≠ .idle ∧
     (s.port q).state ≠ .idle ∧ (s.port p).access = some acc ∧ (s.port q).access = some acc2 ∧ (s.port p).stall ≠ none ∧
     (s.port q).stall ≠ none ∧ acc.offsets ≠ 0 ∧ acc2.offsets ≠ 0 ∧ acc2.page = acc.page ∧ (s.port q).state = .waitSlot) ∧
    (let t : Time := 9
     let s : State := wait (wait running .a .waitSlot write0 none) .b .waitBypass { acc0 with order := 1 } none
     let p : PortId := .a
     let acc : Access := write0
     let q : PortId := .b
     let acc2 : Access := { acc0 with order := 1 }
     let now := max s.now t
     let quiet := max now ((s.lastLoad.map fun l => l + Config.lapse).getD 0)
     let next := (s.loader.getD { copy0 := [], copy1 := [] }).next
     let reading := if s.reading = none ∧ s.owner = .mapLoader
       then some { kind := .mapRead, page := pageCount s.capacity - 2 + next.1.val, offsets := span next.2 1, dropped := true }
       else s.reading.map fun g => { g with dropped := true }
     let begins := quiet ≤ now ∧ reading = none
     let r := State.reset
     let m := State.append
       { s with now, slots := r.slots, freeList := r.freeList, recency := [], ageList := [], pinned := [], queue := [], owner := .none
                reading, requests := [], engineReq := none, fairness := 0, driven := true, commit := none, writer := none, loader := none
                condition := if s.driven = true ∧ s.condition = .idle then .idle else .unsettled
                remap := { live := [], dead := 0, copy := none, sequence := none }
                store := { state := .starting, cause := none, origin := some .restart, quiet
                           phase := some (if begins then .hold else .quietWait)
                           holdDeadline := if begins then some (now + Config.hold) else none }
                mgmt := { s.mgmt with long := .restart, response := [0x01, 0x07] } } .restarted none none none s.store.state.code
     let earlier := (p = .a → acc.order ≤ acc2.order) ∧ (p = .b → acc.order < acc2.order)
     let serve : SlotIx → PortId → Access → State → State := fun j r a v =>
       if (s.port r).state = .waitSlot then v.serveWrite r else v.rereads r a j
     let first := serve 0 p acc m
     let y := first.slot 0
     s.resetN = true ∧ (s.mgmt.long = .none ∨ s.mgmt.long = .quiesce) ∧ p ≠ q ∧ earlier ∧ (s.port p).state ≠ .idle ∧
     (s.port q).state ≠ .idle ∧ (s.port p).access = some acc ∧ (s.port q).access = some acc2 ∧ (s.port p).stall ≠ none ∧
     (s.port q).stall ≠ none ∧ acc.offsets ≠ 0 ∧ acc2.offsets ≠ 0 ∧ acc2.page = acc.page ∧ (s.port q).state ≠ .waitSlot ∧
     subset acc2.offsets y.present = true) ∧
    (let t : Time := 9
     let s : State := wait (wait running .a .waitBypass acc0 none) .b .waitBypass { acc0 with order := 1 } none
     let p : PortId := .a
     let acc : Access := acc0
     let q : PortId := .b
     let acc2 : Access := { acc0 with order := 1 }
     let now := max s.now t
     let quiet := max now ((s.lastLoad.map fun l => l + Config.lapse).getD 0)
     let next := (s.loader.getD { copy0 := [], copy1 := [] }).next
     let reading := if s.reading = none ∧ s.owner = .mapLoader
       then some { kind := .mapRead, page := pageCount s.capacity - 2 + next.1.val, offsets := span next.2 1, dropped := true }
       else s.reading.map fun g => { g with dropped := true }
     let begins := quiet ≤ now ∧ reading = none
     let r := State.reset
     let m := State.append
       { s with now, slots := r.slots, freeList := r.freeList, recency := [], ageList := [], pinned := [], queue := [], owner := .none
                reading, requests := [], engineReq := none, fairness := 0, driven := true, commit := none, writer := none, loader := none
                condition := if s.driven = true ∧ s.condition = .idle then .idle else .unsettled
                remap := { live := [], dead := 0, copy := none, sequence := none }
                store := { state := .starting, cause := none, origin := some .restart, quiet
                           phase := some (if begins then .hold else .quietWait)
                           holdDeadline := if begins then some (now + Config.hold) else none }
                mgmt := { s.mgmt with long := .restart, response := [0x01, 0x07] } } .restarted none none none s.store.state.code
     let earlier := (p = .a → acc.order ≤ acc2.order) ∧ (p = .b → acc.order < acc2.order)
     let serve : SlotIx → PortId → Access → State → State := fun j r a v =>
       if (s.port r).state = .waitSlot then v.serveWrite r else v.rereads r a j
     let first := serve 0 p acc m
     let y := first.slot 0
     s.resetN = true ∧ (s.mgmt.long = .none ∨ s.mgmt.long = .quiesce) ∧ p ≠ q ∧ earlier ∧ (s.port p).state ≠ .idle ∧
     (s.port q).state ≠ .idle ∧ (s.port p).access = some acc ∧ (s.port q).access = some acc2 ∧ (s.port p).stall ≠ none ∧
     (s.port q).stall ≠ none ∧ acc.offsets ≠ 0 ∧ acc2.offsets ≠ 0 ∧ acc2.page = acc.page ∧ (s.port q).state ≠ .waitSlot ∧
     subset acc2.offsets y.present = false) := by
  dsimp only
  and_intros <;> decide

theorem witness_RetryAndDiscardOfPinnedSlots :
    (let s : State := put (put running 0 .pinned 12 0xF 0xF) 5 .pinned 13 1 1
     s.resetN = true ∧ s.collectionsOk ∧ s.freeAscending ∧ s.pinnedAscending ∧ s.requests.Nodup ∧ s.works) ∧
    (let s : State := put running 0 .pinned 12 0xF 0xF
     let l : List SlotIx := [0]
     let a : Byte := 0
     let named := (∃ i : SlotIx, (s.slot i).state = .pinned ∧ l = [i] ∧ a = BitVec.ofNat 8 i.val) ∨ l = s.pinned ∧ a = 0xFF
     let waits : PortId → Prop := fun p => ∃ k ∈ l, (s.slot k).wait p ≠ none
     s.resetN = true ∧ s.collectionsOk ∧ s.freeAscending ∧ s.pinnedAscending ∧ s.requests.Nodup ∧ named ∧ ¬waits .a ∧
     ¬waits .b) ∧
    (let s : State := wait (put (put running 0 .pinned 12 0xF 0xF) 5 .pinned 13 1 1) .b .waitSlot write0 none
     let l : List SlotIx := [0, 5]
     let a : Byte := 0xFF
     let named := (∃ i : SlotIx, (s.slot i).state = .pinned ∧ l = [i] ∧ a = BitVec.ofNat 8 i.val) ∨ l = s.pinned ∧ a = 0xFF
     let waits : PortId → Prop := fun p => ∃ k ∈ l, (s.slot k).wait p ≠ none
     s.resetN = true ∧ s.collectionsOk ∧ s.freeAscending ∧ s.pinnedAscending ∧ s.requests.Nodup ∧ named ∧ ¬waits .a ∧
     ¬waits .b) ∧
    (let t : Time := 9
     let s : State :=
         { wait (put running 0 .pinned 12 0xF 0xF) .a .waitFill acc0 (some 0) with store := { running.store with state := .quiesced } }
     let l : List SlotIx := [0]
     let a : Byte := 0
     let b := { s with now := max s.now t }
     let named := (∃ i : SlotIx, (s.slot i).state = .pinned ∧ l = [i] ∧ a = BitVec.ofNat 8 i.val) ∨ l = s.pinned ∧ a = 0xFF
     let r := b.discarded l
     let waits : PortId → Prop := fun p => ∃ k ∈ l, (s.slot k).wait p ≠ none
     s.resetN = true ∧ s.collectionsOk ∧ s.freeAscending ∧ s.pinnedAscending ∧ s.requests.Nodup ∧ named ∧ ¬s.readable ∧
     s.noWriteWaits ∧ (∀ x ∈ s.portA.access, waits .a → r.uncarried x.page) ∧ (∀ x ∈ s.portB.access, waits .b →
     r.uncarried x.page)) ∧
    (let t : Time := 9
     let s : State := wait (put running 0 .pinned 12 0xF 0xF) .a .waitFill acc0 (some 0)
     let l : List SlotIx := [0]
     let a : Byte := 0
     let p : PortId := .a
     let q : PortId := .b
     let acc : Access := acc0
     let j : SlotIx := 0
     let b := { s with now := max s.now t }
     let named := (∃ i : SlotIx, (s.slot i).state = .pinned ∧ l = [i] ∧ a = BitVec.ofNat 8 i.val) ∨ l = s.pinned ∧ a = 0xFF
     let r := b.discarded l
     let waits : PortId → Prop := fun p => ∃ k ∈ l, (s.slot k).wait p ≠ none
     let alone := waits p ∧ p ≠ q ∧ (s.port p).access = some acc ∧ (s.port p).stall ≠ none ∧ acc.offsets ≠ 0 ∧ r.uncarried acc.page
     s.resetN = true ∧ s.collectionsOk ∧ s.freeAscending ∧ s.pinnedAscending ∧ s.requests.Nodup ∧ named ∧ s.readable ∧
     alone ∧ r.freeList.head? = some j ∧ ¬waits q ∧ (s.port q).state ≠ .waitSlot) ∧
    (let t : Time := 9
     let s : State :=
         wait (wait (put running 0 .pinned 12 0xF 0xF) .a .waitFill acc0 (some 0)) .b .waitSlot { write0 with order := 1 } none
     let l : List SlotIx := [0]
     let a : Byte := 0
     let p : PortId := .a
     let q : PortId := .b
     let acc : Access := acc0
     let accQ : Access := { write0 with order := 1 }
     let j : SlotIx := 0
     let b := { s with now := max s.now t }
     let named := (∃ i : SlotIx, (s.slot i).state = .pinned ∧ l = [i] ∧ a = BitVec.ofNat 8 i.val) ∨ l = s.pinned ∧ a = 0xFF
     let r := b.discarded l
     let waits : PortId → Prop := fun p => ∃ k ∈ l, (s.slot k).wait p ≠ none
     let alone := waits p ∧ p ≠ q ∧ (s.port p).access = some acc ∧ (s.port p).stall ≠ none ∧ acc.offsets ≠ 0 ∧ r.uncarried acc.page
     let first := (p = .a → acc.order ≤ accQ.order) ∧ (p = .b → acc.order < accQ.order)
     s.resetN = true ∧ s.collectionsOk ∧ s.freeAscending ∧ s.pinnedAscending ∧ s.requests.Nodup ∧ named ∧ s.readable ∧
     alone ∧ r.freeList.head? = some j ∧ (s.port q).state = .waitSlot ∧ (s.port q).access = some accQ ∧ first ∧ ¬waits q) ∧
    (let t : Time := 9
     let s : State :=
         wait (wait (put running 0 .pinned 12 0xF 0xF) .a .waitFill ({ acc0 with order := 1 }) (some 0)) .b .waitSlot { write0 with addr := 0x340 } none
     let l : List SlotIx := [0]
     let a : Byte := 0
     let p : PortId := .a
     let q : PortId := .b
     let acc : Access := { acc0 with order := 1 }
     let accQ : Access := { write0 with addr := 0x340 }
     let j : SlotIx := 1
     let b := { s with now := max s.now t }
     let named := (∃ i : SlotIx, (s.slot i).state = .pinned ∧ l = [i] ∧ a = BitVec.ofNat 8 i.val) ∨ l = s.pinned ∧ a = 0xFF
     let r := b.discarded l
     let waits : PortId → Prop := fun p => ∃ k ∈ l, (s.slot k).wait p ≠ none
     let alone := waits p ∧ p ≠ q ∧ (s.port p).access = some acc ∧ (s.port p).stall ≠ none ∧ acc.offsets ≠ 0 ∧ r.uncarried acc.page
     let first := (p = .a → acc.order ≤ accQ.order) ∧ (p = .b → acc.order < accQ.order)
     let w := r.serveWrite q
     s.resetN = true ∧ s.collectionsOk ∧ s.freeAscending ∧ s.pinnedAscending ∧ s.requests.Nodup ∧ named ∧ s.readable ∧
     alone ∧ (s.port q).state = .waitSlot ∧ (s.port q).access = some accQ ∧ ¬first ∧ ¬waits q ∧ w.uncarried acc.page ∧
     w.takes j) ∧
    (let t : Time := 9
     let s : State := packedPinned
     let l : List SlotIx := [0]
     let a : Byte := 0
     let p : PortId := .a
     let q : PortId := .b
     let acc : Access := { acc0 with addr := 0x1900, order := 1 }
     let accQ : Access := write0
     let b := { s with now := max s.now t }
     let named := (∃ i : SlotIx, (s.slot i).state = .pinned ∧ l = [i] ∧ a = BitVec.ofNat 8 i.val) ∨ l = s.pinned ∧ a = 0xFF
     let r := b.discarded l
     let waits : PortId → Prop := fun p => ∃ k ∈ l, (s.slot k).wait p ≠ none
     let alone := waits p ∧ p ≠ q ∧ (s.port p).access = some acc ∧ (s.port p).stall ≠ none ∧ acc.offsets ≠ 0 ∧ r.uncarried acc.page
     let first := (p = .a → acc.order ≤ accQ.order) ∧ (p = .b → acc.order < accQ.order)
     let w := r.serveWrite q
     s.resetN = true ∧ s.collectionsOk ∧ s.freeAscending ∧ s.pinnedAscending ∧ s.requests.Nodup ∧ named ∧ s.readable ∧
     alone ∧ (s.port q).state = .waitSlot ∧ (s.port q).access = some accQ ∧ ¬first ∧ ¬waits q ∧ w.uncarried acc.page ∧
     w.noneAllocatable) ∧
    (let t : Time := 9
     let s : State :=
         wait (wait (put (put running 0 .pinned 12 0xF 0xF) 5 .pinned 13 1 1) .a .waitFill acc0 (some 0)) .b .waitFill { acc0 with addr := 0x340, order := 1 } (some 5)
     let l : List SlotIx := [0, 5]
     let a : Byte := 0xFF
     let p : PortId := .a
     let q : PortId := .b
     let acc : Access := acc0
     let accQ : Access := { acc0 with addr := 0x340, order := 1 }
     let j : SlotIx := 0
     let j2 : SlotIx := 1
     let b := { s with now := max s.now t }
     let named := (∃ i : SlotIx, (s.slot i).state = .pinned ∧ l = [i] ∧ a = BitVec.ofNat 8 i.val) ∨ l = s.pinned ∧ a = 0xFF
     let r := b.discarded l
     let waits : PortId → Prop := fun p => ∃ k ∈ l, (s.slot k).wait p ≠ none
     let alone := waits p ∧ p ≠ q ∧ (s.port p).access = some acc ∧ (s.port p).stall ≠ none ∧ acc.offsets ≠ 0 ∧ r.uncarried acc.page
     let both := alone ∧ waits q ∧ (s.port q).access = some accQ ∧ (s.port q).stall ≠ none ∧ accQ.offsets ≠ 0 ∧ r.uncarried accQ.page
     let first := (p = .a → acc.order ≤ accQ.order) ∧ (p = .b → acc.order < accQ.order)
     s.resetN = true ∧ s.collectionsOk ∧ s.freeAscending ∧ s.pinnedAscending ∧ s.requests.Nodup ∧ named ∧ s.readable ∧
     both ∧ first ∧ accQ.page ≠ acc.page ∧ r.freeList.take 2 = [j, j2]) ∧
    (let t : Time := 9
     let s : State :=
         { wait (wait (put running 0 .pinned 12 0xF 0xF) .a .waitFill acc0 (some 0)) .b .waitFill { acc0 with order := 1 } (some 0) with requests := [.fill 0] }
     let l : List SlotIx := [0]
     let a : Byte := 0
     let p : PortId := .a
     let q : PortId := .b
     let acc : Access := acc0
     let accQ : Access := { acc0 with order := 1 }
     let j : SlotIx := 0
     let b := { s with now := max s.now t }
     let named := (∃ i : SlotIx, (s.slot i).state = .pinned ∧ l = [i] ∧ a = BitVec.ofNat 8 i.val) ∨ l = s.pinned ∧ a = 0xFF
     let r := b.discarded l
     let waits : PortId → Prop := fun p => ∃ k ∈ l, (s.slot k).wait p ≠ none
     let alone := waits p ∧ p ≠ q ∧ (s.port p).access = some acc ∧ (s.port p).stall ≠ none ∧ acc.offsets ≠ 0 ∧ r.uncarried acc.page
     let both := alone ∧ waits q ∧ (s.port q).access = some accQ ∧ (s.port q).stall ≠ none ∧ accQ.offsets ≠ 0 ∧ r.uncarried accQ.page
     let first := (p = .a → acc.order ≤ accQ.order) ∧ (p = .b → acc.order < accQ.order)
     s.resetN = true ∧ s.collectionsOk ∧ s.freeAscending ∧ s.pinnedAscending ∧ s.requests.Nodup ∧ named ∧ s.readable ∧
     both ∧ first ∧ accQ.page = acc.page ∧ r.freeList.head? = some j) := by
  dsimp only
  and_intros <;> decide

/-- A state with a DIRTY slot and a FLUSH waiting. -/
def flushing : State := { put running 3 .dirty 12 0xF 0xF with pending := [.flush 1 []] }

theorem witness_CollectionsFollowSlotStates :
    ∃ u, flushing.collectionsOk ∧ flushing.freeAscending ∧ step flushing = .next u := ⟨_, by decide, by decide, rfl⟩

theorem witness_NoTwoSlotsCarryOnePage : ∃ u, flushing.collectionsOk ∧ flushing.pagesOk ∧ step flushing = .next u :=
  ⟨_, by decide, by decide, rfl⟩

/-- A full log whose first record is read, and LOG_READ waiting. -/
def logReading : State :=
  { running with
      pending := [.logRead 1 []]
      log := { records := (List.range 16).map fun k => { record0 with sequence := BitVec.ofNat 16 (65530 + k), read := k == 0 }
               next := 10, unread := 15 } }

theorem witness_FaultLogStaysInOrder : ∃ u, logReading.log.ok ∧ step logReading = .next u :=
  ⟨_, ⟨by decide, by simp [logReading, consecutive, List.range, List.range.loop], by
    simp [logReading, readThenUnread, List.range, List.range.loop, record0], by decide⟩, rfl⟩

/-- A sound state at work: a commit in flight, a slot SEALED behind it, a read waiting on a fill, a verify waiting to end. -/
def working : State :=
  { wait (put (put (committing .home (attempt0 .verify)) 6 .sealed 14 1 1) 7 .clean 15 1 0) .a .waitFill
      { acc0 with addr := 0x3E0 } (some 7) with pending := [.verifyComplete 9 []] }

theorem witness_PartStaysSound : ∃ u, working.sound ∧ working.settled ∧ step working = .next u :=
  ⟨_, ⟨⟨by decide, by decide, by decide⟩, ⟨by decide, by decide, by decide, by decide, by decide, by decide⟩,
    ⟨by decide, by decide, by decide, by decide, by decide⟩, ⟨by decide, by decide, by decide⟩, by decide, by decide, by decide, by decide⟩,
    by decide, rfl⟩

theorem witness_PartStaysSound_map_load : ∃ u, loading.sound ∧ step loading = .next u :=
  ⟨_, ⟨⟨by decide, by decide, by decide⟩, ⟨by decide, by decide, by decide, by decide, by decide, by decide⟩,
    ⟨by decide, by decide, by decide, by decide, by decide⟩, ⟨by decide, by decide, by decide⟩, by decide, by decide, by decide,
    by decide⟩, rfl⟩

/-- The start-up that waits for a fill which RESTART orphaned. -/
def orphaned : State :=
  { State.reset with
      reading := some { kind := .fill 7, page := 15, offsets := 2, dropped := true }, pending := [.fillCompletion 9 []]
      store := { State.reset.store with origin := some .restart, phase := some .quietWait, holdDeadline := none, quiet := 0 } }

theorem witness_PartStaysSound_orphaned_read : ∃ u, orphaned.sound ∧ step orphaned = .next u :=
  ⟨_, ⟨⟨by decide, by decide, by decide⟩, ⟨by decide, by decide, by decide, by decide, by decide, by decide⟩,
    ⟨by decide, by decide, by decide, by decide, by decide⟩, ⟨by decide, by decide, by decide⟩, by decide, by decide, by decide, by decide⟩,
    rfl⟩

/-- The same with two slots PINNED and two DIRTY since the same moment. -/
def busy : State :=
  put (put (put (put working 8 .pinned 20 1 1) 9 .pinned 21 1 1) 10 .dirty 22 1 1) 11 .dirty 23 1 1

theorem witness_CollectionsFollowSlotStates_orders :
    ∃ u, busy.collectionsOk ∧ busy.freeAscending ∧ busy.pinnedAscending ∧ busy.sound ∧ busy.ageOrdered ∧ step busy = .next u :=
  ⟨_, by decide, by decide, by decide,
    ⟨⟨by decide, by decide, by decide⟩, ⟨by decide, by decide, by decide, by decide, by decide, by decide⟩,
      ⟨by decide, by decide, by decide, by decide, by decide⟩, ⟨by decide, by decide, by decide⟩, by decide, by decide, by decide, by decide⟩,
    by decide, rfl⟩

/-- A retirement of page 12 to spare 4 whose map write is about to be verified. -/
def retiring : State :=
  { put running 4 .committing 12 fullSet 0 with
      remap := table0, owner := .engine, writer := some (writer0 (attempt0 .verify)), pending := [.verifyComplete 9 [(768, 0)]]
      commit := some { record (attempt0 .verify) .mapWrite with
                         spare := some 4, tentative := some { page := 12, spare := 4 }, newlyDead := [5] } }

theorem witness_TranslationAndSpareChoice_step :
    ∃ u, retiring.remap.ok ∧ retiring.commitSound ∧ retiring.remapSound ∧ step retiring = .next u :=
  ⟨_, by decide, by decide, ⟨by decide, by rintro c ⟨⟩; exact ⟨by decide, by decide, fun h => absurd h (by decide)⟩⟩, rfl⟩

theorem witness_BypassCompletionDeliversNewestBytes_write :
    ∃ u, (running.port .a).ready ∧ running.passes true 0x300 2 ∧ running.collectionsOk ∧ running.pagesOk ∧ running.noWriteWaits ∧
      exec (.accessArrival 0 .a true 0x300 2 0x44332211) running = .next u ∧ (u.port .a).rdy = true ∧
      (u.port .a).err = false ∧ 3 < sizeBytes 2 :=
  ⟨_, by decide, by decide, by decide, by decide, by decide, rfl, by decide, by decide, by decide⟩

theorem witness_BypassCompletionDeliversNewestBytes_kept :
    let s := committing .home (attempt0 .poll)
    ∃ u, s.collectionsOk ∧ s.carries 4 12 ∧ (s.slot 4).state ≠ .clean ∧ (s.slot 4).present.getLsbD 2 = true ∧
      s.keepsBytes 12 (.pollDeadlineExpiry 160000) = true ∧ s.noWriteWaitsFor 12 ∧
      exec (.pollDeadlineExpiry 160000) s = .next u ∧ s.noWriteWaits ∧ u.carries 4 12 :=
  ⟨_, by decide, by decide, by decide, by decide, by decide, by decide, rfl, by decide, by decide⟩

theorem witness_BypassCompletionDeliversNewestBytes_kept_at_stop :
    let s := { put running 4 .sealed 12 7 7 with mgmt := { MgmtPort.reset with bus := .receiving, received := [0x04] } }
    ∃ u, s.collectionsOk ∧ s.carries 4 12 ∧ (s.slot 4).state ≠ .clean ∧ (s.slot 4).present.getLsbD 2 = true ∧
      s.keepsBytes 12 (.stopCondition 9) = true ∧ s.noWriteWaitsFor 12 ∧ exec (.stopCondition 9) s = .next u ∧ s.noWriteWaits ∧
      u.carries 4 12 :=
  ⟨_, by decide, by decide, by decide, by decide, by decide, by decide, rfl, by decide, by decide⟩

theorem witness_BoundsAndTimersKept :
    ∃ u, step { working with fairness := 4 } = .next u ∧ working.params.ok ∧ working.store.fieldsOk ∧ working.deadlinesOk ∧
      working.mgmt.response.length ≤ 32 ∧ working.mgmt.received.length ≤ 4 ∧ Memory.wf working.chip.cells = true :=
  ⟨_, rfl, by decide, by decide, by decide, by decide, by decide, by decide⟩

theorem witness_ArrayBytesChangeOnlyByProgramming :
    ∃ u, exec (.pollRead 5 true [(769, 1)])
        { committing .home (attempt0 .poll) with chip := { State.reset.chip with latch := [(0, 7)], latchPage := 12 } } = .next u ∧
      (∀ e ∈ [((769, 1) : Host.Cell)], e.1 ≠ 770) ∧ ∀ e ∈ [((0, 7) : Nat × Byte)], arrayAddress 12 e.1 ≠ 770 :=
  ⟨_, rfl, by decide, by decide⟩

theorem witness_TableParametersAndStrapsChangeOnlyWhereNamed :
    ∃ u, exec (.quiesce 5 []) running = .next u ∧ (Instr.quiesce 5 []).remaps = false ∧ (Instr.quiesce 5 []).configures = false ∧
      (Instr.quiesce 5 []).samplesStraps = false := ⟨_, rfl, rfl, rfl, rfl⟩

end Sys2Proof.Tests
end

/-! PROOF. The fault log (chapter 9): what an append does to the record list and the next sequence (R159), and LOG_READ (R161). -/

namespace Sys2Proof.Machine

/-! ### Appending a record (R159) -/

/-- However full the log is, an append advances the next sequence and puts the new record behind the records it keeps. -/
theorem FaultLog.append_tail (l : FaultLog) (kind : FaultKind) (a b n : Option Nat) (d : Byte) :
    (l.append kind a b n d).next = l.next + 1 ∧
      ∃ kept, (l.append kind a b n d).records = kept ++ [l.entry kind a b n d] := by
  by_cases hroom : l.records.length < 16
  · rw [FaultLog.append_room l kind a b n d hroom]
    exact ⟨rfl, _, rfl⟩
  · obtain ⟨q, rest, hrecords⟩ : ∃ q rest, l.records = q :: rest :=
      List.exists_cons_of_length_pos (by omega)
    rw [FaultLog.append_full l kind a b n d hrecords (by omega)]
    exact ⟨rfl, _, rfl⟩

/-- The next sequence advances modulo 65536. -/
@[simp] theorem FaultLog.append_next (l : FaultLog) (kind : FaultKind) (a b n : Option Nat) (d : Byte) :
    (l.append kind a b n d).next = l.next + 1 :=
  (l.append_tail kind a b n d).1

/-- The newest record of a log is the one appended last. -/
@[simp] theorem FaultLog.append_getLast? (l : FaultLog) (kind : FaultKind) (a b n : Option Nat) (d : Byte) :
    (l.append kind a b n d).records.getLast? = some (l.entry kind a b n d) := by
  obtain ⟨-, kept, hkept⟩ := l.append_tail kind a b n d
  rw [hkept, List.getLast?_concat]

/-- Settles O18: the log with room and the full log separately; a second append reads the next sequence that the first left. -/
theorem faultLogTakesOneRecord : Obligations.FaultLogTakesOneRecord := by
  intro s kind logical physical count detail head tail
  refine ⟨rfl, s.log.append_next .., fun hroom => ?room, fun hrecords hfull => ?full, fun _ _ _ _ _ => ?again⟩
  case room =>
    have happend := s.log.append_room kind logical physical count detail hroom
    exact ⟨congrArg FaultLog.records happend, congrArg FaultLog.unread happend⟩
  case full =>
    have happend := s.log.append_full kind logical physical count detail hrecords (Nat.le_of_eq hfull.symm)
    exact ⟨congrArg FaultLog.records happend, congrArg FaultLog.unread happend⟩
  case again => simp [State.append, FaultLog.entry]

/-! ### Finding and marking the oldest unread record (R161) -/

/-- Behind read records, the first unread record is the oldest unread one. -/
theorem find?_unread {before : List FaultRecord} (hbefore : ∀ q ∈ before, q.read = true) {r : FaultRecord} (hr : r.read = false)
    (after : List FaultRecord) : (before ++ r :: after).find? (fun q => !q.read) = some r := by
  have hnone : before.find? (fun q => !q.read) = none := List.find?_eq_none.mpr fun q hq => by simp [hbefore q hq]
  simp [List.find?_append, hnone, hr]

/-- Marking passes over read records. -/
theorem markFirstUnread_append {before : List FaultRecord} (hbefore : ∀ q ∈ before, q.read = true) (rest : List FaultRecord) :
    markFirstUnread (before ++ rest) = before ++ markFirstUnread rest := by
  induction before with
  | nil => rfl
  | cons q before ih =>
    obtain ⟨hq, hbefore⟩ := List.forall_mem_cons.mp hbefore
    simp [markFirstUnread, hq, ih hbefore]

/-- The record marked stays in its place, and no other record changes. -/
theorem markFirstUnread_unread {before : List FaultRecord} (hbefore : ∀ q ∈ before, q.read = true) {r : FaultRecord}
    (hr : r.read = false) (after : List FaultRecord) :
    markFirstUnread (before ++ r :: after) = before ++ { r with read := true } :: after := by
  rw [markFirstUnread_append hbefore]
  simp [markFirstUnread, hr]

/-! ### The bytes of a fault record (11.7, R184) -/

/-- A page field is its two bytes, low byte first; an absent one has the bytes of FFFFh. -/
theorem pageField_eq (p : Option Nat) :
    pageField p = [BitVec.ofNat 8 (p.getD 0xFFFF), BitVec.ofNat 8 (p.getD 0xFFFF / 256)] := by
  cases p with
  | none => rfl
  | some n =>
    have hlow : (BitVec.ofNat 16 n).setWidth 8 = BitVec.ofNat 8 n := by
      apply BitVec.eq_of_toNat_eq
      simp
    have hhigh : (BitVec.ofNat 16 n >>> 8).setWidth 8 = BitVec.ofNat 8 (n / 256) := by
      apply BitVec.eq_of_toNat_eq
      simp only [BitVec.toNat_setWidth, BitVec.toNat_ushiftRight, BitVec.toNat_ofNat, Nat.shiftRight_eq_div_pow]
      omega
    simp [pageField, le16, hlow, hhigh]

/-- A one-byte field is its byte, or FFh when absent. -/
theorem optionField_eq (n : Option Nat) : optionField n = (n.map fun k => BitVec.ofNat 8 k).getD 0xFF := by
  cases n <;> rfl

/-! ### LOG_READ (R161, R173, R179) -/

/-- No check refuses a LOG_READ: it takes no argument, and no store state and no long command forbids it (R173, R174). -/
theorem State.refusal_logRead (s : State) : s.refusal 0x08 [] false = none := by
  have hlong : s.longBusy 0x08 = false := by
    unfold State.longBusy
    cases s.mgmt.long <;> rfl
  unfold State.refusal
  rw [hlong]
  rfl

/-- With RESET_N high, LOG_READ executes at the event's moment, and the event ends with the grant rule. -/
theorem exec_logRead (t : Time) {s : State} (hreset : s.resetN = true) :
    exec (.logRead t []) s = .next (s.tick t).doLogRead.finish := by
  have hrun : (s.tick t).runCommand 0x08 [] false = (s.tick t).doLogRead := by
    unfold State.runCommand
    rw [State.refusal_logRead]
    rfl
  have hevent : (s.tick t).commandEvent 0x08 [] = ((s.tick t).runCommand 0x08 [] false).finish := if_pos hreset
  exact congrArg Host.Outcome.next (hevent.trans (congrArg State.finish hrun))

/-- With an unread record, LOG_READ returns the oldest, marks it and counts it read. -/
theorem State.doLogRead_unread {s : State} {before after : List FaultRecord} {r : FaultRecord}
    (hrecords : s.log.records = before ++ r :: after) (hbefore : ∀ q ∈ before, q.read = true) (hr : r.read = false) :
    s.doLogRead =
      { s with log := { s.log with records := before ++ { r with read := true } :: after, unread := s.log.unread - 1 } }.respond
        0x08 .ok (recordPayload r (s.log.unread - 1)) := by
  unfold State.doLogRead
  rw [hrecords, find?_unread hbefore hr, markFirstUnread_unread hbefore hr]

/-- With no unread record, LOG_READ answers EMPTY and changes nothing else. -/
theorem State.doLogRead_allRead {s : State} (hread : ∀ q ∈ s.log.records, q.read = true) :
    s.doLogRead = s.respond 0x08 .empty [] := by
  have hnone : s.log.records.find? (fun q => !q.read) = none := List.find?_eq_none.mpr fun q hq => by simp [hread q hq]
  unfold State.doLogRead
  rw [hnone]

/-- Settles O56: the command is never refused, so its answer is that of `State.doLogRead` in each of its two cases. -/
theorem logReadReturnsOldestUnread : Obligations.LogReadReturnsOldestUnread := by
  intro t s before r after hreset
  refine ⟨fun hrecords hbefore hr => ?unread, fun hread => ?allRead⟩
  case unread =>
    rw [exec_logRead t hreset, State.doLogRead_unread (s := s.tick t) hrecords hbefore hr]
    simp only [recordPayload, pageField_eq, optionField_eq]
    rfl
  case allRead =>
    rw [exec_logRead t hreset, State.doLogRead_allRead (s := s.tick t) hread]
    rfl

end Sys2Proof.Machine

/-! PROOF. Commands refused at the management port (10_management_port): the checks of R173, said of a command's byte and arguments
in the words of the statements, and the one effect of a refused command. -/

namespace Sys2Proof.Machine

/-! ### The row of a command byte (10.6) -/

/-- The bytes 01h to 0Eh name the commands, each with its number of argument bytes; no other byte names one. -/
theorem argumentCount_eq (code : Byte) :
    argumentCount code = if 1 ≤ code.toNat ∧ code.toNat ≤ 14 then some (argumentsOf code) else none := by
  unfold argumentCount argumentsOf
  split
  case h_15 => rw [if_neg (by grind)]
  all_goals
    rename_i hcode
    simp [hcode]

/-- Whatever the byte, its row is the event in which a whole write of it and its argument bytes ends. -/
theorem exec_commandRow (t : Time) (code : Byte) (args : List Byte) (s : State) :
    exec (commandRow t code args) s = .next ((s.tick t).commandEvent code args) := by
  unfold commandRow
  split
  case h_15 =>
    have hunknown : (argumentCount code).isNone = true := by
      rw [argumentCount_eq, if_neg (by grind)]
      rfl
    exact congrArg Host.Outcome.next (if_pos hunknown)
  all_goals
    rename_i hcode
    obtain ⟨-, rfl⟩ := BitVec.toNat_eq_nat.mp hcode
    rfl

/-! ### Checks 4 to 7 of R173 -/

/-- Check 4: a long command is busy with another, but RESTART with QUIESCE (R174). -/
theorem State.longBusy_iff (s : State) (code : Byte) : s.longBusy code = true ↔ s.refusesLong code := by
  unfold State.longBusy State.refusesLong
  simp only [← BitVec.toNat_inj]
  cases s.mgmt.long <;> grind

/-- Check 5: the identifier, slot, entry or port is not one that the command takes; FFh names every PINNED slot. -/
theorem argumentOutside_iff (code : Byte) (args : List Byte) :
    argumentOutside code args = true ↔ argumentRefused code (args.headD 0) := by
  unfold argumentOutside argumentRefused argument
  generalize args.headD 0 = a
  have hall : a = 0xFF ↔ a.toNat = 255 := BitVec.toNat_inj.symm
  simp only [← BitVec.toNat_inj (x := code)]
  split <;> grind

/-- Check 6: the store, the slot named or the port is not in a state for the command. -/
theorem State.stateForbids_iff (s : State) (code : Byte) (args : List Byte) :
    s.stateForbids code args = true ↔ s.stateRefuses code (args.headD 0) := by
  unfold State.stateForbids State.stateRefuses argument slotOf
  rw [← State.committable_iff]
  simp only [← BitVec.toNat_inj]
  split <;> grind

/-- A 16-bit field read back is its low byte and 256 times its high byte. -/
theorem word16_toNat (lo hi : Byte) : (word16 lo hi).toNat = lo.toNat + 256 * hi.toNat := by
  have hshift : (hi.setWidth 16 <<< 8).toNat = 2 ^ 8 * hi.toNat := by
    rw [BitVec.toNat_shiftLeft, Nat.shiftLeft_eq, BitVec.toNat_setWidth]
    omega
  have hor := Nat.two_pow_add_eq_or_of_lt lo.isLt hi.toNat
  simp only [word16, BitVec.toNat_or, hshift, BitVec.toNat_setWidth]
  rw [Nat.mod_eq_of_lt (by omega), Nat.or_comm, ← hor]
  omega

/-- The ranges of the parameters (R176). -/
theorem paramRange_eq_false_iff (a : Byte) (v : Nat) : paramRange a v = false ↔ valueRefused a v := by
  unfold paramRange valueRefused
  simp only [← BitVec.toNat_inj]
  split <;> grind

/-- Check 7: only CONFIG_SET has a value, its second argument byte the low one. -/
theorem valueOutside_iff (code : Byte) (args : List Byte) :
    valueOutside code args = true ↔
      code = 3 ∧ valueRefused (args.headD 0) ((args.getD 1 0).toNat + 256 * (args.getD 2 0).toNat) := by
  rw [← word16_toNat, ← paramRange_eq_false_iff]
  simp [valueOutside, argument, configValue]

/-! ### The seven checks in order (R173) -/

/-- Check 1: a write of more bytes than the port keeps is refused whatever its bytes are. -/
theorem State.refusal_overflow (s : State) (code : Byte) (args : List Byte) : s.refusal code args true = some .arg := rfl

/-- Check 2: a byte that names no command is refused before its arguments are counted. -/
theorem State.refusal_unknown (s : State) {code : Byte} (args : List Byte) (hunknown : ¬(1 ≤ code.toNat ∧ code.toNat ≤ 14)) :
    s.refusal code args false = some .unknown := by
  unfold State.refusal
  rw [argumentCount_eq, if_neg hunknown]
  rfl

/-- Checks 3 to 7 of a byte that names a command, in their order. -/
theorem State.refusal_known (s : State) {code : Byte} (args : List Byte) (hknown : 1 ≤ code.toNat ∧ code.toNat ≤ 14) :
    s.refusal code args false =
      if args.length ≠ argumentsOf code then some .arg
      else if s.refusesLong code then some .busy
      else if argumentRefused code (args.headD 0) then some .arg
      else if s.stateRefuses code (args.headD 0) then some .state
      else if code = 3 ∧ valueRefused (args.headD 0) ((args.getD 1 0).toNat + 256 * (args.getD 2 0).toNat) then some .range
      else none := by
  simp only [← State.longBusy_iff, ← argumentOutside_iff, ← State.stateForbids_iff, ← valueOutside_iff]
  unfold State.refusal
  rw [argumentCount_eq, if_pos hknown]
  rfl

/-- No command takes more argument bytes than the port keeps. -/
theorem argumentsOf_le (code : Byte) : argumentsOf code ≤ 3 := by
  unfold argumentsOf
  rw [List.getD_eq_getElem?_getD]
  have hcounts : ∀ n ∈ [0, 0, 1, 3, 0, 0, 0, 0, 0, 1, 1, 1, 0, 1, 0], n ≤ 3 := by decide
  cases hentry : [0, 0, 1, 3, 0, 0, 0, 0, 0, 1, 1, 1, 0, 1, 0][code.toNat]? with
  | none => exact Nat.zero_le 3
  | some n => exact hcounts n (List.mem_of_getElem? hentry)

/-! ### The effect of a refused command (R172, R173) -/

/-- A refused command changes nothing but the response, and its event ends with the grant rule. -/
theorem exec_commandRow_refused (t : Time) {code : Byte} {args : List Byte} {s : State} {r : Result} (hreset : s.resetN = true)
    (hrefused : s.refusal code (args.take 3) (decide (3 < args.length)) = some r) :
    exec (commandRow t code args) s =
      .next (State.finish (State.responding { s with now := max s.now t } [r.code, code])) := by
  have hticked : (s.tick t).refusal code (args.take 3) (decide (3 < args.length)) = some r := hrefused
  rw [exec_commandRow, State.commandEvent, State.tick_resetN, if_pos hreset, State.runCommand, hticked]
  rfl

/-- A write that the port keeps whole is refused by the checks of its own argument bytes. -/
theorem exec_commandRow_refused_kept (t : Time) {code : Byte} {args : List Byte} {s : State} {r : Result}
    (hreset : s.resetN = true) (hkept : args.length ≤ 3) (hrefused : s.refusal code args false = some r) :
    exec (commandRow t code args) s =
      .next (State.finish (State.responding { s with now := max s.now t } [r.code, code])) := by
  apply exec_commandRow_refused t hreset
  rw [List.take_of_length_le hkept, decide_eq_false (Nat.not_lt.mpr hkept)]
  exact hrefused

/-- Settles O53: in each clause the earlier checks pass and the clause's own check gives the refusal. -/
theorem commandRefusalsInOrder : Obligations.CommandRefusalsInOrder := by
  intro t code args s hreset
  dsimp only
  refine ⟨fun hover => ?overflow, fun hkept hunknown => ?unknown, fun hkept hknown hcount => ?count,
    fun hknown hcount => ?checks⟩
  case overflow =>
    apply exec_commandRow_refused (r := .arg) t hreset
    rw [decide_eq_true hover, State.refusal_overflow]
  case unknown =>
    exact exec_commandRow_refused_kept (r := .unknown) t hreset hkept (s.refusal_unknown args hunknown)
  case count =>
    apply exec_commandRow_refused_kept (r := .arg) t hreset hkept
    rw [State.refusal_known s args hknown, if_pos hcount]
  case checks =>
    have hkept : args.length ≤ 3 := hcount ▸ argumentsOf_le code
    have hchain := s.refusal_known args hknown
    rw [if_neg (not_not_intro hcount)] at hchain
    refine ⟨fun hlong => ?long, fun hlong harg => ?argument, fun hlong harg hstate => ?state,
      fun hlong harg hstate hset hvalue => ?value⟩
    case long =>
      apply exec_commandRow_refused_kept (r := .busy) t hreset hkept
      rw [hchain, if_pos hlong]
    case argument =>
      apply exec_commandRow_refused_kept (r := .arg) t hreset hkept
      rw [hchain, if_neg hlong, if_pos harg]
    case state =>
      apply exec_commandRow_refused_kept (r := .state) t hreset hkept
      rw [hchain, if_neg hlong, if_neg harg, if_pos hstate]
    case value =>
      apply exec_commandRow_refused_kept (r := .range) t hreset hkept
      rw [hchain, if_neg hlong, if_neg harg, if_neg hstate, if_pos ⟨hset, hvalue⟩]

end Sys2Proof.Machine

/-! PROOF. The statements of the family 'other'. Their proofs are elaborated one after the other: in parallel, with the text above in
one compile, they take more memory than the check allows. -/

section

set_option Elab.async false

/-! PROOF. The fixed-state statements about `State.reset`, the step itself, the handshake of the host ports and the byte events of the
two-wire bus. -/

namespace Sys2Proof.Machine

/-- Two choices agree when their conditions are equivalent and their branches equal. -/
theorem ite_of_iff {α : Type} {p q : Prop} [Decidable p] [Decidable q] {x y u v : α} (h : p ↔ q) (hx : x = u) (hy : y = v) :
    (if p then x else y) = if q then u else v := by
  rw [hx, hy]
  exact ite_congr (propext h) (fun _ => rfl) (fun _ => rfl)

/-- Settles O1: both clauses are the two branches of `step`; with no map load in flight the loader's read changes nothing. -/
theorem stepTakesFrontCommand : Obligations.StepTakesFrontCommand := by
  intro c rest s
  refine ⟨fun hqueue => ?_, fun hempty hloader => ?_⟩
  · unfold step
    rw [hqueue]
  · unfold step
    rw [hempty]
    show Host.Outcome.next s.readMap = _
    rw [State.readMap, hloader]

/-! ### State.reset -/

/-- Every slot of `State.reset` is the slot of a pin reset. -/
@[simp] theorem State.slot_reset (i : SlotIx) : State.reset.slot i = Slot.reset := by
  simp [State.slot, State.reset]

/-- Settles O3. -/
theorem resetStateHoldsPinResetValues : Obligations.ResetStateHoldsPinResetValues := by
  have hport : ∀ p : PortId, State.reset.port p = HostPort.reset := fun p => by cases p <;> rfl
  refine ⟨fun i => State.slot_reset i, ⟨by decide, rfl, rfl, rfl, rfl⟩, fun p => ?_, ⟨rfl, rfl, rfl, rfl, rfl, rfl, rfl⟩, rfl,
    ⟨rfl, rfl, rfl⟩, rfl, rfl, ⟨rfl, rfl, rfl, rfl, rfl, rfl, rfl⟩, ⟨rfl, rfl, rfl⟩, ⟨?_, ?_, rfl, rfl, rfl⟩⟩
  · rw [hport p]
    exact ⟨rfl, rfl, rfl, rfl, rfl⟩
  · simp [State.pend, Slot.reset, SlotState.undurable]
  · simp [State.alert, State.anyPinned, Slot.reset, State.reset, FaultLog.reset, State.slot]

/-- The free list of `State.reset` holds every slot, and the other collections hold none. -/
theorem State.reset_collectionsOk : State.reset.collectionsOk := by
  have hfree : State.reset.holds State.reset.freeList .free :=
    ⟨by decide, fun i => by simp [Slot.reset, show i ∈ State.reset.freeList from mem_allSlots i]⟩
  have hnone : ∀ st, st ≠ .free → State.reset.holds [] st := fun st hst => ⟨List.nodup_nil, fun i => by simpa [Slot.reset] using hst.symm⟩
  exact ⟨hfree, hnone _ (by decide), hnone _ (by decide), hnone _ (by decide), hnone _ (by decide)⟩

theorem State.reset_sound : State.reset.sound := by
  refine ⟨⟨State.reset_collectionsOk, ⟨fun i _ => by simp [Slot.reset], fun i j h => by simp [Slot.reset] at h⟩,
    fun i => by rw [State.slot_reset]; decide⟩, ⟨by decide, by decide, fun i => ?_, fun i => ?_, fun i _ => ?_, by decide⟩,
    ⟨fun i => ?_, nofun, nofun, by decide, by decide⟩, ⟨by decide, ⟨nofun, nofun, nofun⟩, by decide, nofun⟩, by decide, by decide,
    ⟨by decide, by decide, nofun⟩, by decide⟩
  all_goals simp [Slot.reset, State.reset, HostPort.reset, Slot.wait, State.port, State.slot]

/-- Settles O4. -/
theorem resetStateMeetsTheInvariants : Obligations.ResetStateMeetsTheInvariants :=
  ⟨State.reset_sound, by decide, ⟨by decide, trivial, trivial, rfl⟩, rfl, by decide, by decide,
    fun _ i => by rw [State.slot_reset]; exact ⟨rfl, rfl⟩, by decide, by decide, .nil, .nil,
    ⟨by decide, nofun⟩, by decide, by decide⟩

/-- A deadline that is present has come when the clock has reached it. -/
theorem State.due_some_iff (s : State) (d : Time) : s.due (some d) = true ↔ d ≤ s.now := decide_eq_true_iff

/-! ### The handshake of the host ports (R25) -/

/-- A port written twice holds what was written last; written with what it holds, it changes nothing. -/
theorem State.setPort_port (s : State) (p : PortId) : s.setPort p (s.port p) = s := by cases p <;> rfl

/-- Settles O30: each clause is one branch of the event, the port's record being the one before. -/
theorem handshakeOfAnswers : Obligations.HandshakeOfAnswers := by
  intro t p wr addr size wd s
  have hport : (s.tick t).port p = s.port p := s.port_tick t p
  refine ⟨fun hwait => ?waiting, fun hidle hrdy => ?presented, fun hidle hrdy hspent => ?spent, ?removed, fun e he => ?pulse,
    fun hnone => ?noPulse⟩
  case waiting =>
    show execAccessArrival .. = _
    simp only [execAccessArrival, hport, if_pos hwait]
    cases p <;> rfl
  case presented =>
    show execAccessArrival .. = _
    have hnot : ¬(s.port p).state ≠ .idle := not_not_intro hidle
    simp only [execAccessArrival, hport, if_neg hnot, if_pos hrdy]
    split
    · rename_i hpulse
      rw [if_neg (Option.isSome_iff_ne_none.1 hpulse)]
      cases p <;> rfl
    · rename_i hpulse
      rw [if_pos (by simpa using hpulse)]
      rfl
  case spent =>
    show execAccessArrival .. = _
    simp only [execAccessArrival, hport, hidle, hrdy, hspent]
    rfl
  case removed =>
    show execReqRemoved .. = _
    simp only [execReqRemoved, State.modPort, hport, Bool.and_eq_true, Option.isNone_iff_eq_none]
    cases p <;> rfl
  case pulse =>
    show execRdyPulseEnd .. = _
    simp only [execRdyPulseEnd, State.modPort, hport, Option.mem_def.1 he]
    exact congrArg Host.Outcome.next (ite_of_iff ((s.tick t).due_some_iff e) (by cases p <;> rfl) rfl)
  case noPulse =>
    show execRdyPulseEnd .. = _
    simp only [execRdyPulseEnd, hport, hnone]
    rfl

/-! ### Bytes on the two-wire bus (R168, R169, R171, R181) -/

/-- The address byte is the own address with its read or write bit exactly when its number is twice the own address, or one more. -/
theorem address_match (straps : BitVec 2) (byte : Byte) :
    byte.extractLsb' 1 7 = ownAddress straps ↔
      byte.toNat = 2 * (0x2C + straps.toNat) ∨ byte.toNat = 2 * (0x2C + straps.toNat) + 1 := by
  have hstraps := straps.isLt
  have hbyte := byte.isLt
  simp only [← BitVec.toNat_inj, ownAddress, BitVec.extractLsb'_toNat, BitVec.toNat_add, BitVec.toNat_setWidth,
    Nat.shiftRight_eq_div_pow, show (0x2C : BitVec 7).toNat = 44 from rfl]
  omega

/-- Settles O51: with the address byte due the branches are told apart by the byte's number. -/
theorem addressAndGeneralCallBytes : Obligations.AddressAndGeneralCallBytes := by
  intro t byte s hreset
  refine ⟨fun hdue => ?due, fun hnot => ?notDue, fun hcall => ?general⟩
  case notDue =>
    show execAddressByte .. = _
    simp only [execAddressByte, State.tick_mgmt, hnot]
    simp
    rfl
  case general =>
    show execGeneralCallByte .. = _
    have htake : s.mgmt.takeGeneral byte =
        if s.mgmt.gcByte = none ∧ byte = 0x04 then { s.mgmt with gcByte := some 0x04, ack := true, sda := none }
        else { s.mgmt with bus := .ignoring, gcByte := none, ack := false, sda := none } := by
      unfold MgmtPort.takeGeneral
      split
      · rw [‹s.mgmt.gcByte = none ∧ byte = 0x04›.2]
      · rfl
    rw [← htake]
    exact congrArg Host.Outcome.next (if_pos hcall)
  case due =>
    have hzero : byte = 0x00 ↔ byte.toNat = 0 := by simp [← BitVec.toNat_inj]
    have hbit : byte.getLsbD 0 = decide (byte.toNat % 2 = 1) := by simp [BitVec.getLsbD, Nat.testBit_zero]
    show execAddressByte .. = _
    simp only [execAddressByte, State.tick_mgmt, State.tick_resetN, hdue, hreset, and_self, if_true, State.modMgmt, MgmtPort.address,
      hzero, hbit, address_match, State.tick_addrStrap]
    by_cases h0 : byte.toNat = 0
    · simp only [h0, if_true]
      rfl
    · by_cases hw : byte.toNat = 2 * (0x2C + s.addrStrap.toNat)
      · have hodd : ¬byte.toNat % 2 = 1 := by omega
        simp only [hw, hw ▸ hodd, if_false, true_or, if_true, decide_false, Bool.false_eq_true]
        rw [if_neg (by omega)]
        rfl
      · by_cases hr : byte.toNat = 2 * (0x2C + s.addrStrap.toNat) + 1
        · have hodd : byte.toNat % 2 = 1 := by omega
          simp [hr, hr ▸ hodd]
        · simp [h0, hw, hr]

/-- Settles O52: each clause is one branch of the event. -/
theorem dataBytesAreKeptUpToFour : Obligations.DataBytesAreKeptUpToFour := by
  intro t byte ack s
  refine ⟨fun hbus => ?_, fun hbus => ?_⟩
  · show execDataByte .. = _
    simp only [← Nat.lt_succ_iff]
    exact congrArg Host.Outcome.next (if_pos hbus)
  · show execResponseByte .. = _
    have hnext : s.mgmt.response.getD s.mgmt.readPos 0xFF =
        if s.mgmt.readPos < s.mgmt.response.length then s.mgmt.response.getD s.mgmt.readPos 0 else 0xFF := by
      split
      · simp [*]
      · simp [List.getElem?_eq_none (Nat.le_of_not_lt ‹_›)]
    rw [← hnext]
    exact congrArg Host.Outcome.next (if_pos hbus)

/-! ### The start-up hold and the map loader's reads (R127, R140, R141) -/

/-- Settles O45: each clause is one branch of its event, or the loader's next read. -/
theorem startUpHoldAndMapLoadGrant : Obligations.StartUpHoldAndMapLoadGrant := by
  intro t s d l
  have hready : (s.tick t).holdReady = true ↔
      s.resetN = true ∧ s.store.state = .starting ∧ s.store.phase = some .quietWait ∧ s.store.quiet ≤ max s.now t := by
    simp only [State.holdReady, Bool.and_eq_true, decide_eq_true_eq, and_assoc]
    rfl
  refine ⟨fun hreset hstate hphase hquiet => ⟨fun hreading => ?free, fun g hg => ?reading⟩, fun hquiet => ?early,
    fun hphase hdeadline => ?holdEnd, fun hqueue hloader => ⟨fun hroom hempty => ?copy0, fun hwhole hroom => ?copy1,
      fun hwhole hlast => ?last⟩⟩
  case free =>
    show execHoldBegin .. = _
    simp only [execHoldBegin, if_pos (hready.2 ⟨hreset, hstate, hphase, hquiet⟩), State.tick_reading, hreading]
    exact congrArg Host.Outcome.next (by rw [← hreading]; rfl)
  case reading =>
    show execHoldBegin .. = _
    have hkind : g.isMapRead = true ↔ g.kind = .mapRead := by
      unfold Reading.isMapRead
      cases g.kind <;> simp
    simp only [execHoldBegin, if_pos (hready.2 ⟨hreset, hstate, hphase, hquiet⟩), State.tick_reading, Option.mem_def.1 hg]
    rw [← Option.mem_def.1 hg]
    exact congrArg Host.Outcome.next (ite_of_iff hkind rfl rfl)
  case early =>
    show execHoldBegin .. = _
    have hnot : ¬(s.tick t).holdReady = true := fun h => absurd (hready.1 h).2.2.2 (Nat.not_le.2 hquiet)
    simp only [execHoldBegin, if_neg hnot]
    rfl
  case holdEnd =>
    show execHoldEnd .. = _
    have hadvance : s.chip.advance (max s.now t) =
        if s.chip.latch ≠ [] ∧ s.chip.loadedAt + Config.latchLapseMax + Config.programMax ≤ max s.now t then s.chip.finish
        else s.chip := by
      simp [Chip.advance]
    have hdue : ((s.tick t).store.phase = some .hold ∧ (s.tick t).due (s.tick t).store.holdDeadline = true) ↔ d ≤ max s.now t := by
      rw [State.tick_store, hphase, hdeadline, State.due_some_iff]
      exact and_iff_right rfl
    exact congrArg Host.Outcome.next (ite_of_iff hdue (by rw [State.tick_now, State.tick_chip, hadvance]; rfl) rfl)
  case copy0 =>
    have hnext : l.next = (0, l.copy0.length) := if_pos hroom
    have htake : ∀ b, l.take b = { l with copy0 := l.copy0 ++ [b] } := fun b => if_pos hroom
    have hcount : l.copy0.length + l.copy1.length < 127 := by simp [hempty]; omega
    simp only [step, hqueue, State.readMap, hloader, hnext, htake, if_pos hcount]
    rfl
  case copy1 =>
    have hnext : l.next = (1, l.copy1.length) := if_neg (by omega)
    have htake : ∀ b, l.take b = { l with copy1 := l.copy1 ++ [b] } := fun b => if_neg (by omega)
    simp only [step, hqueue, State.readMap, hloader, hnext, htake, if_pos (show l.copy0.length + l.copy1.length < 127 by omega)]
    rfl
  case last =>
    simp only [step, hqueue, State.readMap, hloader, if_neg (show ¬l.copy0.length + l.copy1.length < 127 by omega)]

end Sys2Proof.Machine

/-! PROOF. What an event can do, said once: every event is a chain of a few elementary edits of the state, each with the conditions
under which it happens. An invariant that every edit keeps is kept by every step. -/

namespace Sys2Proof.Machine

/-- What the command of an event is entitled to: the page of a write that it brings, whether it may change the table, the parameters
or the straps, whether it ends programming, whether it may drop bytes that a slot holds, and the array bytes it finds changed. -/
structure Scope where
  brings : Option Nat
  remaps : Bool
  configures : Bool
  straps : Bool
  programs : Bool
  drops : Bool
  worn : List Host.Cell

/-- A write to the page waits for a slot at one of the ports. -/
def State.writeWaits (s : State) (page : Nat) : Prop :=
  ∃ p acc, (s.port p).state = .waitSlot ∧ (s.port p).access = some acc ∧ acc.page = page

/-- An edit of slot `i` to the record `y` that leaves state and page: no deadline appears but in RUNNING; a DIRTY slot keeps the
moment since which it is dirty, unless it takes the present moment for an empty dirty set or is the slot of the commit in flight; and
no byte held changes unless a write to the page is being served. `o` is the state at the event's beginning. -/
structure Slot.Edited (k : Scope) (o s : State) (i : SlotIx) (y : Slot) : Prop where
  state : y.state = (s.slot i).state := by rfl
  page : y.page = (s.slot i).page := by rfl
  deadlines : s.store.state ≠ .running → (s.slot i).settle = none → (s.slot i).age = none → y.settle = none ∧ y.age = none :=
    by exact fun _ hs ha => ⟨hs, ha⟩
  since : (s.slot i).state = .dirty →
    y.dirtySince = (s.slot i).dirtySince ∧ ((s.slot i).dirty ≠ 0 → y.dirty ≠ 0) ∨
      ((s.slot i).dirty = 0 ∧ y.dirtySince = some s.now) ∨
      (o.commit.map CommitRecord.slot = some i ∧ (o.slot i).state = .dirty) := by exact fun _ => .inl ⟨rfl, id⟩
  bytes : k.drops = false → (∀ page, (s.slot i).page = some page → ¬s.writeWaits page ∧ k.brings ≠ some page) →
    ∀ n, (s.slot i).present.getLsbD n = true →
      y.present.getLsbD n = true ∧ Page.byte y.image n = Page.byte (s.slot i).image n := by exact fun _ _ _ hn => ⟨hn, rfl⟩

/-- An edit of everything but slots and collections, within what the command is entitled to. -/
structure Rest (k : Scope) (s u : State) : Prop where
  slots : u.slots = s.slots := by rfl
  freeList : u.freeList = s.freeList := by rfl
  recency : u.recency = s.recency := by rfl
  ageList : u.ageList = s.ageList := by rfl
  pinned : u.pinned = s.pinned := by rfl
  queue : u.queue = s.queue := by rfl
  pending : u.pending = s.pending := by rfl
  now : u.now = s.now := by rfl
  log : s.log.ok → u.log.ok := by exact id
  params : u.params = s.params ∨ k.configures = true := by exact .inl rfl
  paramsOk : s.params.ok → u.params.ok := by exact id
  fairness : s.fairness ≤ 4 → u.fairness ≤ 4 := by exact id
  store : s.store.fieldsOk → u.store.fieldsOk := by exact id
  deadlines : s.store.state = .running → u.store.state ≠ .running → ∀ i, (s.slot i).settle = none ∧ (s.slot i).age = none :=
    by exact fun h h' => absurd h h'
  response : s.mgmt.response.length ≤ 32 → u.mgmt.response.length ≤ 32 := by exact id
  received : s.mgmt.received.length ≤ 4 → u.mgmt.received.length ≤ 4 := by exact id
  cells : Memory.wf s.chip.cells = true → Memory.wf u.chip.cells = true := by exact id
  bytes : ∀ a, (∀ e ∈ k.worn, e.1 ≠ a) → (k.programs = true → ∀ e ∈ s.chip.latch, arrayAddress s.chip.latchPage e.1 ≠ a) →
    Memory.read u.chip.cells a = Memory.read s.chip.cells a ∧
      (k.programs = true → ∀ e ∈ u.chip.latch, arrayAddress u.chip.latchPage e.1 ≠ a) := by exact fun _ _ h => ⟨rfl, h⟩
  remap : u.remap = s.remap ∨ k.remaps = true := by exact .inl rfl
  straps : (u.capacity = s.capacity ∧ u.addrStrap = s.addrStrap) ∨ k.straps = true := by exact .inl ⟨rfl, rfl⟩
  waits : ∀ page, u.writeWaits page → s.writeWaits page ∨ k.brings = some page := by exact fun _ h => .inl h

/-- The slots and collections as pin reset and RESTART leave them. -/
def State.clearSlots (s : State) : State :=
  { s with slots := Vector.replicate 32 Slot.reset, freeList := allSlots, recency := [], ageList := [], pinned := [], queue := [] }

/-- One elementary edit in an event that began in state `o`. -/
inductive Edit (k : Scope) (o s : State) : State → Prop
  | slot (i : SlotIx) (f : Slot → Slot) (h : Slot.Edited k o s i (f (s.slot i))) : Edit k o s (s.modSlot i f)
  | move (i : SlotIx) (st : SlotState) (hfree : st ≠ .free) (hclean : st = .clean → (s.slot i).state = .clean ∨ k.brings = none)
      (hdirty : st = .dirty → (s.slot i).dirty ≠ 0 ∨ (s.slot i).dirtySince = some s.now) : Edit k o s (s.moveTo i st)
  | free (i : SlotIx) (h : (s.slot i).present = 0 ∨ k.drops = true) : Edit k o s (s.freeSlot i)
  | allocate (i : SlotIx) (page : Nat) (hi : s.allocatable = some i) (hpage : s.uncarried page)
      (hfor : s.writeWaits page ∨ s.slots = o.slots ∨ k.drops = true) : Edit k o s (s.allocate i page)
  | clear (h : k.drops = true) : Edit k o s s.clearSlots
  | rest (u : State) (h : Rest k s u) : Edit k o s u

/-- A chain of edits in an event that began in state `o`. -/
inductive Edits (k : Scope) (o s : State) : State → Prop
  | refl : Edits k o s s
  | tail {m u : State} (hm : Edits k o s m) (he : Edit k o m u) : Edits k o s u

variable {k : Scope} {o s u : State}

theorem Edit.edits (h : Edit k o s u) : Edits k o s u := .tail .refl h

theorem Edits.trans {m : State} (hm : Edits k o s m) (h : Edits k o m u) : Edits k o s u := by
  induction h with
  | refl => exact hm
  | tail _ he ih => exact ih.tail he

theorem Rest.edits (h : Rest k s u) : Edits k o s u := (Edit.rest u h).edits

/-- A chain through a fold: every step is one. -/
theorem Edits.foldl {α : Type} {f : State → α → State} (hf : ∀ s a, Edits k o s (f s a)) (l : List α) (s : State) :
    Edits k o s (l.foldl f s) := by
  induction l generalizing s with
  | nil => exact .refl
  | cons a rest ih => exact (hf s a).trans (ih (f s a))

/-- A write that waits after a chain of edits waited before it, or is the one that the command brings. -/
theorem Edits.writeWaits (h : Edits k o s u) {page : Nat} (hw : u.writeWaits page) : s.writeWaits page ∨ k.brings = some page := by
  induction h with
  | refl => exact .inl hw
  | @tail m u hm he ih =>
    have same : ∀ {v : State}, OnlySlots m v → v.writeWaits page → m.writeWaits page := by
      rintro v hv ⟨p, acc, hwait⟩
      have hport : v.port p = m.port p := by
        rw [hv]
        cases p <;> rfl
      exact ⟨p, acc, by rwa [hport] at hwait⟩
    cases he with
    | slot i f _ => exact ih (same (m.modSlot_frame i f) hw)
    | move i st _ _ _ => exact ih (same (m.moveTo_frame i st) hw)
    | free i _ => exact ih (same (m.freeSlot_frame i) hw)
    | allocate i page' _ _ _ => exact ih (same (m.allocate_frame i page') hw)
    | clear _ => exact ih (same (v := m.clearSlots) rfl hw)
    | rest u hr => exact (hr.waits page hw).elim ih .inr

/-! ### The seal logic -/

theorem State.giveDeadlines_edits (s : State) (i : SlotIx) : Edits k o s (s.giveDeadlines i) := by
  unfold State.giveDeadlines
  split
  · rename_i hrun
    exact (Edit.slot i _ { deadlines := fun h => absurd hrun h }).edits
  · exact .refl

theorem State.clearDeadlines_edits (s : State) : Edits k o s s.clearDeadlines :=
  Edits.foldl (fun s i => (Edit.slot i Slot.clearDeadlines { deadlines := fun _ _ _ => ⟨rfl, rfl⟩ }).edits) allSlots s

theorem State.sealOne_edits (s : State) (i : SlotIx) : Edits k o s (s.sealOne i) := by
  unfold State.sealOne
  split
  · exact (Edit.move i .sealed nofun nofun nofun).edits
  · exact .refl

theorem State.sealNamed_edits (s : State) (i : SlotIx) : Edits k o s (s.sealNamed i) := by
  unfold State.sealNamed
  split
  · split
    · exact (Edits.foldl State.sealOne_edits _ s).trans (State.sealOne_edits _ i)
    · exact State.sealOne_edits s i
  · exact .refl

theorem State.sealAll_edits (s : State) : Edits k o s s.sealAll := Edits.foldl State.sealOne_edits _ s

theorem State.fullPage_edits (s : State) (i : SlotIx) : Edits k o s (s.fullPage i) := by
  unfold State.fullPage
  split
  · exact State.sealNamed_edits s i
  · exact .refl

theorem State.highWater_edits (s : State) : Edits k o s s.highWater := by
  unfold State.highWater
  split
  · exact Edits.foldl State.sealOne_edits _ s
  · exact .refl

theorem State.pfwSeal_edits (s : State) (i : SlotIx) : Edits k o s (s.pfwSeal i) := by
  unfold State.pfwSeal
  split
  · exact State.sealNamed_edits s i
  · exact .refl

theorem State.retrySeals_edits (s : State) : Edits k o s s.retrySeals := by
  unfold State.retrySeals
  split
  · exact Edits.foldl State.sealOne_edits _ s
  · exact .refl

/-- The bytes of a write join the slot that carries its page. -/
theorem State.mergeBytes_edit {i : SlotIx} {acc : Access} (hpage : (s.slot i).page = some acc.page)
    (hw : s.writeWaits acc.page ∨ k.brings = some acc.page) : Edit k o s (s.modSlot i fun x => x.merge acc s.now) := by
  refine .slot i _ { since := fun _ => ?_, bytes := fun _ hno => ?_ }
  · by_cases h : (s.slot i).dirty = 0
    · exact .inr (.inl ⟨h, by simp [h]⟩)
    · refine .inl ⟨if_neg h, fun _ => ?_⟩
      simpa [BitVec.or_eq_zero_iff] using fun h' => absurd h' h
  · obtain ⟨hwaits, hbrings⟩ := hno acc.page hpage
    exact absurd hw (not_or.2 ⟨hwaits, hbrings⟩)

/-- After a merge the dirty set has a byte, or the slot is dirty since this moment. -/
theorem Slot.merge_dirtied (x : Slot) (acc : Access) (now : Time) :
    (x.merge acc now).dirty ≠ 0 ∨ (x.merge acc now).dirtySince = some now := by
  by_cases h : x.dirty = 0
  · exact .inr (by simp [h])
  · exact .inl (by simpa [BitVec.or_eq_zero_iff] using fun h' => absurd h' h)

theorem Slot.restartSettle_eq (x : Slot) (d : Time) : x.restartSettle d = { x with settle := x.settle.map fun _ => d } := by
  unfold Slot.restartSettle
  split
  · rename_i h
    rw [h, Option.map_none, ← h]
  · rename_i h
    rw [h]
    rfl

theorem State.restartSettle_edits (s : State) (i : SlotIx) (d : Time) : Edits k o s (s.modSlot i fun x => x.restartSettle d) := by
  refine (Edit.slot i _ ?_).edits
  simp only [Slot.restartSettle_eq]
  exact { deadlines := fun _ hs ha => ⟨by simp [hs], ha⟩ }

theorem State.merge_edits {i : SlotIx} {acc : Access} (hpage : (s.slot i).page = some acc.page)
    (hw : s.writeWaits acc.page ∨ k.brings = some acc.page) : Edits k o s (s.merge i acc) := by
  have hm := (State.mergeBytes_edit (o := o) hpage hw).edits
  unfold State.merge
  cases (s.slot i).state
  · exact .refl
  · exact (((hm.trans (Edit.move i .dirty nofun nofun fun _ => by simpa using (s.slot i).merge_dirtied acc s.now).edits).trans
      (State.giveDeadlines_edits _ i)).trans (State.highWater_edits _))
  · exact (hm.trans (State.restartSettle_edits _ i _)).trans (State.fullPage_edits _ i)
  · exact hm
  · exact hm
  · exact hm

end Sys2Proof.Machine

/-! PROOF. The shared operations as chains of edits: the access unit, the store controller and the array port. -/

namespace Sys2Proof.Machine

variable {k : Scope} {o s u : State}

/-! ### Page images -/

theorem members_iff {x : OffsetSet} {n : Nat} : n ∈ members x ↔ x.getLsbD n = true := by
  unfold members
  simp only [List.mem_filter, List.mem_range, and_iff_right_iff_imp]
  exact BitVec.lt_of_getLsbD

/-- A byte put at one offset leaves every other offset. -/
theorem Page.byte_setIfInBounds (im : Page) (j n : Nat) (b : Byte) :
    Page.byte (im.setIfInBounds j b) n = if j = n ∧ n < 64 then b else Page.byte im n := by
  unfold Page.byte
  rw [Vector.getElem?_setIfInBounds]
  by_cases h : j = n
  · by_cases hn : n < 64
    · simp [h, hn]
    · simp [h, hn]
  · simp [h]

/-- The bytes of an image with the listed offsets taken from `f`. -/
theorem Page.byte_putEach (f : Nat → Byte) (l : List Nat) (im : Page) (n : Nat) :
    Page.byte (Page.putEach im f l) n = if n ∈ l ∧ n < 64 then f n else Page.byte im n := by
  induction l generalizing im with
  | nil => simp [Page.putEach]
  | cons j rest ih =>
    rw [Page.putEach, ih, Page.byte_setIfInBounds]
    by_cases hr : n ∈ rest
    · by_cases hn : n < 64 <;> simp [hr, hn]
    · by_cases hj : j = n
      · subst hj
        simp [hr]
      · simp [hr, hj, Ne.symm hj]

/-- Array bytes land where the slot has none: what it holds stays. -/
theorem Slot.land_keeps (x : Slot) (f : Nat → Byte) (offs : OffsetSet) {n : Nat} (hn : x.present.getLsbD n = true) :
    (x.land f offs).present.getLsbD n = true ∧ Page.byte (x.land f offs).image n = Page.byte x.image n := by
  unfold Slot.land
  refine ⟨by simp [hn], ?_⟩
  simp only
  rw [Page.byte_putEach, if_neg]
  rintro ⟨hmem, -⟩
  simpa [hn] using members_iff.1 hmem

/-! ### Ports and requests -/

/-- A change of one port is an edit when a write that waits after it waited before, or is the one the command brings. -/
theorem State.setPort_rest {p : PortId} {h : HostPort}
    (hw : h.state = .waitSlot → h.access = (s.port p).access ∧ (s.port p).state = .waitSlot ∨
      ∀ acc, h.access = some acc → k.brings = some acc.page) : Rest k s (s.setPort p h) := by
  have hwaits : ∀ page, (s.setPort p h).writeWaits page → s.writeWaits page ∨ k.brings = some page := by
    rintro page ⟨q, acc, hstate, hacc, rfl⟩
    by_cases hq : p = q
    · subst hq
      rw [State.port_setPort_same] at hstate hacc
      rcases hw hstate with ⟨hsame, hwait⟩ | hbrings
      · exact .inl ⟨p, acc, hwait, hsame ▸ hacc, rfl⟩
      · exact .inr (hbrings acc hacc)
    · rw [State.port_setPort_ne _ _ hq] at hstate hacc
      exact .inl ⟨q, acc, hstate, hacc, rfl⟩
  cases p <;> exact { waits := hwaits }

/-- A port that ends in another state than WAIT_SLOT brings no waiting write. -/
theorem State.setPort_edits {p : PortId} {h : HostPort} (hw : h.state ≠ .waitSlot) : Edits k o s (s.setPort p h) :=
  (State.setPort_rest fun h' => absurd h' hw).edits

theorem State.answer_edits (s : State) (p : PortId) (rd : BitVec 32) : Edits k o s (s.answer p rd) :=
  State.setPort_edits nofun

theorem State.answerNotReady_edits (s : State) (p : PortId) : Edits k o s (s.answerNotReady p) := State.setPort_edits nofun

theorem State.answerError_edits (s : State) (p : PortId) (reason : Reason) (detail : Detail) :
    Edits k o s (s.answerError p reason detail) := by
  cases hacc : (s.port p).access with
  | none =>
    rw [State.answerError_idle s reason detail hacc]
    exact .refl
  | some acc =>
    rw [State.answerError_eq s reason detail hacc]
    exact State.setPort_edits nofun

theorem State.enterWait_edits (s : State) (p : PortId) (acc : Access) {st : PortState} (w : Option SlotIx) (hst : st ≠ .waitSlot) :
    Edits k o s (s.enterWait p acc st w) := State.setPort_edits hst

/-- A change of fill pending and waiting ports alone. -/
theorem State.modSlot_waits_edits (s : State) (i : SlotIx) (f : Slot → Slot)
    (hf : ∀ x : Slot, f x = { x with fillPending := (f x).fillPending, waitA := (f x).waitA, waitB := (f x).waitB }) :
    Edits k o s (s.modSlot i f) := by
  refine (Edit.slot i f ?_).edits
  rw [hf]
  exact {}

theorem State.setWait_edits (s : State) (i : SlotIx) (p : PortId) (w : Option OffsetSet) :
    Edits k o s (s.modSlot i fun x => x.setWait p w) :=
  State.modSlot_waits_edits s i _ fun x => by cases p <;> rfl

theorem State.requestFill_edits (s : State) (i : SlotIx) : Edits k o s (s.requestFill i) := by
  unfold State.requestFill
  split
  · exact .refl
  · exact (State.modSlot_waits_edits s i (fun x => { x with fillPending := some (~~~x.present) }) fun _ => rfl).trans (Rest.edits {})

theorem State.waitOnSlot_edits (s : State) (i : SlotIx) (p : PortId) (acc : Access) : Edits k o s (s.waitOnSlot i p acc) :=
  ((State.requestFill_edits s i).trans (State.setWait_edits _ i p _)).trans (State.enterWait_edits _ p acc _ nofun)

theorem State.touch_edits (s : State) (i : SlotIx) : Edits k o s (s.touch i) := by
  unfold State.touch
  split
  · rename_i hclean
    exact (Edit.move i .clean nofun (fun _ => .inl hclean) nofun).edits
  all_goals exact .refl

theorem State.readMiss_edits (p : PortId) (acc : Access) {found : Option SlotIx} (hfound : found = none → s.uncarried acc.page)
    (hfor : s.slots = o.slots ∨ k.drops = true) : Edits k o s (s.readMiss p acc found) := by
  unfold State.readMiss
  split
  · exact State.answerError_edits s p _ _
  · split
    · exact State.waitOnSlot_edits s _ p acc
    · split
      · exact (Edit.allocate _ _ ‹_› (hfound rfl) (.inr hfor)).edits.trans (State.waitOnSlot_edits _ _ p acc)
      · exact (Rest.edits (u := { s with requests := s.requests ++ [Request.bypass p] }) {}).trans
          (State.enterWait_edits _ p acc none nofun)

theorem State.readPath_edits (p : PortId) (acc : Access) (hfor : s.slots = o.slots ∨ k.drops = true) :
    Edits k o s (s.readPath p acc) := by
  unfold State.readPath
  split
  · split
    · exact (State.touch_edits s _).trans (State.answer_edits _ p _)
    · exact State.readMiss_edits p acc nofun hfor
  · exact State.readMiss_edits p acc (fun _ => (s.lookup_none_iff _).1 ‹_›) hfor

/-- A write given a slot is one that waits, or the one that the command brings at the event's beginning. -/
theorem State.writeInto_edits (p : PortId) {acc : Access}
    (hw : s.writeWaits acc.page ∨ k.brings = some acc.page ∧ s.slots = o.slots) : Edits k o s (s.writeInto p acc) := by
  unfold State.writeInto
  split
  · exact (State.merge_edits (State.lookup_carries ‹_›).2 (hw.imp_right And.left)).trans (State.answer_edits _ p _)
  · split
    · rename_i i hi
      have hpage : ((s.allocate i acc.page).slot i).page = some acc.page := by rw [State.slot_allocate_same]
      have hports : ∀ q, (s.allocate i acc.page).port q = s.port q := fun q => by
        rw [s.allocate_frame i acc.page]
        cases q <;> rfl
      have hwaits : (s.allocate i acc.page).writeWaits acc.page ∨ k.brings = some acc.page :=
        hw.imp (by simp only [State.writeWaits, hports]; exact id) And.left
      exact ((Edit.allocate i acc.page hi ((s.lookup_none_iff _).1 ‹_›) (hw.imp_right (.inl ·.2))).edits.trans
        (State.merge_edits hpage hwaits)).trans (State.answer_edits _ p _)
    · exact .refl

theorem State.writePath_edits (p : PortId) {acc : Access} (hacc : (s.port p).access = some acc)
    (hbrings : k.brings = some acc.page) (hslots : s.slots = o.slots) : Edits k o s (s.writePath p acc) := by
  unfold State.writePath
  split
  · exact State.writeInto_edits p (.inr ⟨hbrings, hslots⟩)
  · split
    · exact State.answerError_edits s p _ _
    · refine (State.setPort_rest fun _ => .inr fun acc' hacc' => ?_).edits
      rw [hacc] at hacc'
      rwa [← Option.some.inj hacc']

theorem State.serveWrite_edits (s : State) (p : PortId) : Edits k o s (s.serveWrite p) := by
  unfold State.serveWrite
  split
  · exact State.writeInto_edits p (.inl ⟨p, _, ‹_›, ‹_›, rfl⟩)
  · exact .refl

theorem State.serveWaiting_edits (s : State) : Edits k o s s.serveWaiting := Edits.foldl State.serveWrite_edits _ s

theorem State.serveRestarted_edits (s : State) (l : List PortId) (hk : k.drops = true) : Edits k o s (s.serveRestarted l) := by
  refine Edits.foldl (fun s p => ?_) _ s
  split
  · split
    · exact State.readPath_edits p _ (.inr hk)
    · exact .refl
  · exact State.serveWrite_edits s p

theorem State.orderRequests_edits (s : State) (n : Nat) : Edits k o s (s.orderRequests n) := Rest.edits {}

theorem State.withdrawFill_edits (s : State) (i : SlotIx) : Edits k o s (s.withdrawFill i) :=
  (State.modSlot_waits_edits s i (fun x => { x with fillPending := none }) fun _ => rfl).trans (Rest.edits {})

theorem State.releaseIfEmpty_edits (s : State) (i : SlotIx) : Edits k o s (s.releaseIfEmpty i) := by
  unfold State.releaseIfEmpty
  dsimp only
  split
  · rename_i h
    exact (Edit.free i (.inl h.2.1)).edits
  · exact .refl

theorem State.refuseWaiter_edits (s : State) (i : SlotIx) (detail : Detail) (p : PortId) :
    Edits k o s (s.refuseWaiter i detail p) := by
  unfold State.refuseWaiter
  split
  · exact (State.setWait_edits s i p none).trans (State.answerError_edits _ p _ _)
  · exact .refl

theorem State.withdrawRequest_edits (detail : Detail) (s : State) (r : Request) : Edits k o s (State.withdrawRequest detail s r) := by
  cases r with
  | fill i =>
    exact (((State.withdrawFill_edits s i).trans (State.refuseWaiter_edits _ i detail .a)).trans
      (State.refuseWaiter_edits _ i detail .b)).trans (State.releaseIfEmpty_edits _ i)
  | bypass p =>
    exact (Rest.edits (u := { s with requests := s.requests.erase (Request.bypass p) }) {}).trans
      (State.answerError_edits _ p .arrayUnavailable detail)

theorem State.withdrawAll_edits (s : State) (detail : Detail) : Edits k o s (s.withdrawAll detail) :=
  Edits.foldl (State.withdrawRequest_edits detail) _ s

theorem State.refuseWrites_edits (s : State) (reason : Reason) (detail : Detail) : Edits k o s (s.refuseWrites reason detail) := by
  refine Edits.foldl (fun s p => ?_) _ s
  unfold State.refuseWrite
  split
  · exact State.answerError_edits s p _ _
  · exact .refl

theorem State.answerWaiter_edits (i : SlotIx) (s : State) (p : PortId) : Edits k o s (State.answerWaiter i s p) := by
  unfold State.answerWaiter
  split
  · split
    · exact (State.setWait_edits s i p none).trans (State.answer_edits _ p _)
    · exact .refl
  · exact .refl

theorem State.answerWaiters_edits (s : State) (i : SlotIx) : Edits k o s (s.answerWaiters i) :=
  Edits.foldl (State.answerWaiter_edits i) _ s

theorem State.land_edits (s : State) (i : SlotIx) (f : Nat → Byte) (offs : OffsetSet) :
    Edits k o s (s.modSlot i fun x => x.land f offs) :=
  (Edit.slot i _ { bytes := fun _ _ _ hn => (s.slot i).land_keeps f offs hn }).edits

theorem State.completeFill_edits (s : State) (i : SlotIx) (page : Nat) (offs : OffsetSet) :
    Edits k o s (s.completeFill i page offs) := by
  have h : Edits k o s ((s.modSlot i fun x =>
      { x.land (fun k => s.chip.read page k) offs with fillPending := none }).answerWaiters i) :=
    (Edit.slot i _ { bytes := fun _ _ _ hn => (s.slot i).land_keeps _ offs hn }).edits.trans (State.answerWaiters_edits _ i)
  unfold State.completeFill
  dsimp only
  split
  · exact h
  · exact h.trans (State.touch_edits _ i)

/-! ### The store controller -/

theorem State.endLong_edits (s : State) (long : LongCommand) : Edits k o s (s.endLong long) := by
  unfold State.endLong
  split
  · exact Rest.edits {}
  · exact .refl

/-- A change of the store's record alone. -/
theorem State.store_edits (s : State) (c : Store) (hfields : s.store.fieldsOk → c.fieldsOk)
    (hdeadlines : s.store.state = .running → c.state ≠ .running → ∀ i, (s.slot i).settle = none ∧ (s.slot i).age = none) :
    Edits k o s { s with store := c } := Rest.edits { store := hfields, deadlines := hdeadlines }

theorem State.releasePort_edits (s : State) : Edits k o s s.releasePort := Rest.edits {}

theorem State.enterRunning_edits (s : State) : Edits k o s s.enterRunning := by
  have hrun : Edits k o s { s with store :=
      { s.store with state := .running, cause := none, origin := none, phase := none, holdDeadline := none } } :=
    State.store_edits s _ (fun _ => by simp [Store.fieldsOk]) fun _ h => absurd rfl h
  have hfresh : ∀ (l : List SlotIx) (m : State), m.store.state = .running →
      Edits k o m (l.foldl State.freshDeadlines m) := by
    intro l
    induction l with
    | nil => exact fun m _ => .refl
    | cons i rest ih => exact fun m hm => (Edit.slot i _ { deadlines := fun h => absurd hm h }).edits.trans (ih _ hm)
  unfold State.enterRunning
  exact ((hrun.trans (hfresh _ _ rfl)).trans (Edits.foldl State.fullPage_edits _ _)).trans (State.highWater_edits _)

/-- Deadlines removed one slot after the other. -/
theorem State.slot_clearDeadlines (s : State) (i : SlotIx) : s.clearDeadlines.slot i = (s.slot i).clearDeadlines := by
  have h : ∀ (l : List SlotIx) (m : State), (l.foldl (fun s i => s.modSlot i Slot.clearDeadlines) m).slot i =
      if i ∈ l then (m.slot i).clearDeadlines else m.slot i := by
    intro l
    induction l with
    | nil => simp
    | cons j rest ih =>
      intro m
      rw [List.foldl_cons, ih, State.slot_modSlot]
      by_cases hj : j = i
      · subst hj
        simp [Slot.clearDeadlines]
      · simp [hj, Ne.symm hj]
  rw [State.clearDeadlines, h, if_pos (mem_allSlots i)]

/-- The removal of the deadlines and a change of the store's record come to the same in either order. -/
theorem State.clearDeadlines_store (s : State) (c : Store) :
    ({ s with store := c } : State).clearDeadlines = { s.clearDeadlines with store := c } := by
  have h : ∀ (l : List SlotIx) (m : State), l.foldl (fun s i => s.modSlot i Slot.clearDeadlines) { m with store := c } =
      { l.foldl (fun s i => s.modSlot i Slot.clearDeadlines) m with store := c } := by
    intro l
    induction l with
    | nil => exact fun _ => rfl
    | cons j rest ih => exact fun m => ih (m.modSlot j Slot.clearDeadlines)
  exact h allSlots s

theorem State.enterDegraded_edits (s : State) (cause : Cause) : Edits k o s (s.enterDegraded cause) := by
  have hstore : Edits k o s.clearDeadlines { s.clearDeadlines with store :=
      { s.store with state := .degraded, cause := some cause, origin := none, phase := none, holdDeadline := none } } :=
    State.store_edits _ _ (fun _ => by simp [Store.fieldsOk]) fun _ _ i => by rw [s.slot_clearDeadlines]; exact ⟨rfl, rfl⟩
  have h : Edits k o s ((({ s with store :=
      { s.store with state := .degraded, cause := some cause, origin := none, phase := none, holdDeadline := none } } :
      State).clearDeadlines.refuseWrites .storeFull .degraded).endLong .quiesce) := by
    rw [State.clearDeadlines_store]
    exact (((State.clearDeadlines_edits s).trans hstore).trans (State.refuseWrites_edits _ _ _)).trans (State.endLong_edits _ _)
  cases cause with
  | mapInvalid => exact h
  | mapWriteFail => exact h
  | arrayTimeout => exact h.trans (State.withdrawAll_edits _ _)

/-- QUIESCED is entered from DRAINING, where no deadline stands and the record has no cause, origin, phase or hold. -/
theorem State.enterQuiesced_edits (hs : s.store.state = .draining) : Edits k o s s.enterQuiesced := by
  have hstore : Edits k o s { s with store := { s.store with state := .quiesced } } :=
    State.store_edits s _ (fun h => by simpa [Store.fieldsOk, hs] using h) fun h => by simp [hs] at h
  have h := (((hstore.trans (State.withdrawAll_edits _ .quiesced)).trans (State.serveWaiting_edits _)).trans
    (State.refuseWrites_edits _ .storeFull .quiesced)).trans (State.endLong_edits _ .quiesce)
  unfold State.enterQuiesced
  dsimp only
  split
  · exact h.trans (State.releasePort_edits _)
  · exact h

theorem State.drainCheck_edits (s : State) : Edits k o s s.drainCheck := by
  unfold State.drainCheck
  split
  · exact State.enterQuiesced_edits (‹_ ∧ _›).1
  · exact .refl

/-- The hold begins in STARTING. -/
theorem State.beginHold_edits (hs : s.store.state = .starting) : Edits k o s s.beginHold :=
  State.store_edits s _ (fun ⟨hcause, horigin, _, _⟩ => ⟨hcause, horigin, by simp [hs], by simp⟩) fun h => by simp [hs] at h

theorem State.holdReady_iff (s : State) : s.holdReady = true ↔
    s.resetN = true ∧ s.store.state = .starting ∧ s.store.phase = some .quietWait ∧ s.store.quiet ≤ s.now := by
  simp [State.holdReady, and_assoc]

theorem State.tryHold_edits (s : State) : Edits k o s s.tryHold := by
  unfold State.tryHold
  split
  · rename_i h
    simp only [Bool.and_eq_true, State.holdReady_iff] at h
    exact State.beginHold_edits h.1.2.1
  · exact .refl

/-! ### The array port -/

theorem State.setAttempt_rest (s : State) (a : Attempt) : Rest k s (s.setAttempt a) := by
  unfold State.setAttempt
  split
  · exact {}
  · split
    · exact {}
    · exact {}

@[simp] theorem State.setAttempt_chip (s : State) (a : Attempt) : (s.setAttempt a).chip = s.chip := by
  unfold State.setAttempt
  split
  · rfl
  · split <;> rfl

/-- A change of the array that stores nothing, by a command that does not end programming. -/
theorem State.load_edits (s : State) (chip : Chip) (last : Option Time) (c : Condition) (hk : k.programs = false)
    (hcells : chip.cells = s.chip.cells) : Edits k o s { s with chip := chip, lastLoad := last, condition := c } :=
  Rest.edits { cells := fun h => hcells ▸ h, bytes := fun a _ _ => ⟨by rw [hcells], fun h => by simp [hk] at h⟩ }

theorem State.issueLoad_edits (s : State) (hk : k.programs = false) : Edits k o s s.issueLoad := by
  unfold State.issueLoad
  split
  · exact .refl
  · split
    · exact .refl
    · exact (State.setAttempt_rest s _).edits.trans (State.load_edits _ _ _ _ hk (by simp))

theorem State.offer_edits (s : State) : Edits k o s s.offer := by
  unfold State.offer
  split
  · exact Rest.edits { fairness := fun _ => Nat.zero_le 4 }
  · exact .refl

theorem State.snapshot_edits (s : State) (hk : k.programs = false) : Edits k o s s.snapshot := by
  unfold State.snapshot
  split
  · exact .refl
  · rename_i i rest _
    have hmove : Edits k o s (s.moveTo i .committing) := (Edit.move i .committing nofun nofun nofun).edits
    have hempty : Edits k o (s.moveTo i .committing)
        ((s.moveTo i .committing).modSlot i fun x => { x with dirty := 0, dirtySince := none }) :=
      (Edit.slot i _ { since := fun h => by simp at h }).edits
    exact ((hmove.trans hempty).trans (Rest.edits { fairness := fun _ => Nat.zero_le 4 })).trans (State.issueLoad_edits _ hk)

theorem State.grantEngine_edits (s : State) (hk : k.programs = false) : Edits k o s s.grantEngine := by
  unfold State.grantEngine
  split
  · exact .refl
  · exact State.snapshot_edits s hk
  · exact (Rest.edits { fairness := fun _ => Nat.zero_le 4 }).trans (State.issueLoad_edits _ hk)

/-- A grant to the request list with an engine request standing raises the fairness count, which is below 4 then. -/
theorem State.grantRequest_edits (r : Request) (hfair : s.engineReq.isSome = true → s.fairness ≠ 4) :
    Edits k o s (s.grantRequest r) := by
  have hcount : s.fairness ≤ 4 → s.takeRequest.fairness ≤ 4 := fun h => by
    simp only [State.takeRequest]
    split
    · have := hfair ‹_›
      omega
    · exact h
  have htake : Edits k o s s.takeRequest := Rest.edits { fairness := hcount }
  cases r with
  | fill i =>
    simp only [State.grantRequest]
    split
    · exact htake.trans ((State.completeFill_edits _ _ _ _).trans (State.serveWaiting_edits _))
    · exact htake.trans (Rest.edits {})
  | bypass p =>
    simp only [State.grantRequest]
    split
    · exact htake
    · exact htake.trans (Rest.edits {})

theorem State.arbitrate_edits (n : Nat) (s : State) (hk : k.programs = false) : Edits k o s (State.arbitrate n s) := by
  induction n generalizing s with
  | zero => exact .refl
  | succ n ih =>
    have h : Edits k o s s.offer := State.offer_edits s
    simp only [State.arbitrate]
    split
    · exact h
    · split
      · exact h.trans (State.grantEngine_edits _ hk)
      · rename_i hgrant
        split
        · exact (h.trans (State.grantRequest_edits _ fun he hf => hgrant ⟨he, .inr hf⟩)).trans (ih _)
        · split
          · exact h.trans (State.grantEngine_edits _ hk)
          · exact h

theorem State.finish_edits (s : State) (hk : k.programs = false) : Edits k o s s.finish := State.arbitrate_edits _ s hk

theorem State.endReading_edits (s : State) : Edits k o s s.endReading := by
  have h : Edits k o s { s with owner := .none, reading := none } := Rest.edits {}
  unfold State.endReading
  dsimp only
  split
  · exact h.trans (Rest.edits {})
  · exact h.trans (State.tryHold_edits _)

end Sys2Proof.Machine

/-! PROOF. The fault log stays in order under an append (R159) and under LOG_READ (R161). -/

namespace Sys2Proof.Machine

/-- A record with the next sequence follows consecutive ones. -/
theorem consecutive_concat {l : List FaultRecord} {next : BitVec 16} {r : FaultRecord} (h : consecutive l next)
    (hr : r.sequence = next) : consecutive (l ++ [r]) (next + 1) := by
  induction l with
  | nil => exact congrArg (· + 1) hr
  | cons q rest ih =>
    cases rest with
    | nil => exact ⟨h.trans hr.symm, congrArg (· + 1) hr⟩
    | cons q' rest => exact ⟨h.1, ih h.2⟩

theorem consecutive_tail {q : FaultRecord} {l : List FaultRecord} {next : BitVec 16} (h : consecutive (q :: l) next) :
    consecutive l next := by
  cases l with
  | nil => trivial
  | cons q' rest => exact h.2

theorem readThenUnread_concat {l : List FaultRecord} {r : FaultRecord} (h : readThenUnread l) (hr : r.read = false) :
    readThenUnread (l ++ [r]) := by
  induction l with
  | nil => simp [readThenUnread, hr]
  | cons q rest ih =>
    unfold readThenUnread at h
    rw [List.cons_append, readThenUnread]
    split at h
    · rw [if_pos ‹_›]
      exact ih h
    · rw [if_neg ‹_›]
      intro q' hq'
      rcases List.mem_append.1 hq' with hq' | hq'
      · exact h q' hq'
      · rwa [List.mem_singleton.1 hq']

theorem readThenUnread_tail {q : FaultRecord} {l : List FaultRecord} (h : readThenUnread (q :: l)) : readThenUnread l := by
  unfold readThenUnread at h
  split at h
  · exact h
  · cases l with
    | nil => trivial
    | cons q' rest =>
      have hq' : q'.read = false := h q' List.mem_cons_self
      rw [readThenUnread, if_neg (by simp [hq'])]
      exact fun q'' hq'' => h q'' (List.mem_cons_of_mem _ hq'')

/-- An append keeps the log in order: with room the record joins it, and a full log loses its oldest record. -/
theorem FaultLog.append_ok {l : FaultLog} (h : l.ok) (kind : FaultKind) (a b n : Option Nat) (d : Byte) :
    (l.append kind a b n d).ok := by
  obtain ⟨hlen, hseq, hread, hunread⟩ := h
  refine ⟨l.append_length kind a b n d hlen, ?_⟩
  by_cases hroom : l.records.length < 16
  · rw [FaultLog.append_room l kind a b n d hroom]
    refine ⟨consecutive_concat hseq rfl, readThenUnread_concat hread rfl, ?_⟩
    simp [hunread, FaultLog.entry]
  · obtain ⟨q, rest, hrecords⟩ : ∃ q rest, l.records = q :: rest := List.exists_cons_of_length_pos (by omega)
    rw [FaultLog.append_full l kind a b n d hrecords (by omega)]
    rw [hrecords] at hseq hread hunread
    refine ⟨consecutive_concat (consecutive_tail hseq) rfl, readThenUnread_concat (readThenUnread_tail hread) rfl, ?_⟩
    cases hq : q.read <;> simp [hunread, hq, FaultLog.entry]

/-- Marking changes no sequence. -/
theorem markFirstUnread_consecutive {l : List FaultRecord} {next : BitVec 16} (h : consecutive l next) :
    consecutive (markFirstUnread l) next := by
  have hhead : ∀ (q : FaultRecord) (rest : List FaultRecord), ∃ q' rest', markFirstUnread (q :: rest) = q' :: rest' ∧
      q'.sequence = q.sequence := fun q rest => by
    rw [markFirstUnread]
    split
    · exact ⟨_, _, rfl, rfl⟩
    · exact ⟨_, _, rfl, rfl⟩
  induction l with
  | nil => exact h
  | cons q rest ih =>
    rw [markFirstUnread]
    split
    · cases rest with
      | nil => exact h
      | cons r rest =>
        obtain ⟨r', rest', hmark, hsame⟩ := hhead r rest
        have := ih h.2
        rw [hmark] at this ⊢
        exact ⟨h.1.trans hsame.symm, this⟩
    · cases rest with
      | nil => exact h
      | cons r rest => exact ⟨h.1, h.2⟩

/-- Marking the oldest unread record keeps the log in order, one record less being unread. -/
theorem FaultLog.mark_ok {l : FaultLog} (h : l.ok) :
    ({ l with records := markFirstUnread l.records, unread := l.unread - 1 } : FaultLog).ok := by
  obtain ⟨hlen, hseq, hread, hunread⟩ := h
  have hlength : ∀ m : List FaultRecord, (markFirstUnread m).length = m.length := by
    intro m
    induction m with
    | nil => rfl
    | cons q rest ih =>
      rw [markFirstUnread]
      split <;> simp [ih]
  refine ⟨Nat.le_trans (Nat.le_of_eq (hlength _)) hlen, markFirstUnread_consecutive hseq, ?_⟩
  rw [hunread]
  clear hlen hseq hunread hlength
  simp only
  generalize l.records = m at hread
  induction m with
  | nil => exact ⟨trivial, rfl⟩
  | cons q rest ih =>
    unfold readThenUnread at hread
    rw [markFirstUnread]
    by_cases hq : q.read = true
    · rw [if_pos hq] at hread
      obtain ⟨ihread, ihcount⟩ := ih hread
      rw [if_pos hq, readThenUnread, if_pos hq]
      exact ⟨ihread, by simpa [hq] using ihcount⟩
    · rw [if_neg hq] at hread
      rw [if_neg hq, readThenUnread, if_pos rfl]
      refine ⟨?_, by simp [hq]⟩
      cases rest with
      | nil => trivial
      | cons r rest =>
        rw [readThenUnread, if_neg (by simp [hread r List.mem_cons_self])]
        exact fun r' hr' => hread r' (List.mem_cons_of_mem _ hr')

theorem FaultLog.reset_ok : FaultLog.reset.ok := ⟨Nat.zero_le 16, trivial, trivial, rfl⟩

end Sys2Proof.Machine

/-! PROOF. The outcomes of the engine and the map writer, and the commands of the management port, as chains of edits. -/

namespace Sys2Proof.Machine

variable {k : Scope} {o s u : State}

/-! ### The log, the table and the array -/

theorem State.append_edits (s : State) (kind : FaultKind) (a b n : Option Nat) (d : Byte) : Edits k o s (s.append kind a b n d) :=
  Rest.edits { log := fun h => FaultLog.append_ok h kind a b n d }

theorem State.adopt_edits (s : State) (c : CommitRecord) (hk : k.remaps = true) : Edits k o s (s.adopt c) :=
  Rest.edits { remap := .inr hk }

/-- A change of the engine's and the map writer's records, the owner and the condition alone. -/
theorem State.engine_edits (s : State) (c : Option CommitRecord) (w : Option MapWriter) (ow : Owner) (cond : Condition) :
    Edits k o s { s with commit := c, writer := w, owner := ow, condition := cond } := Rest.edits {}

/-! ### Outcomes of a commit -/

/-- The slot of the commit in flight is DIRTY only where it was DIRTY at the event's beginning. -/
def CommitSlotDirtyOnlyFrom (o s : State) (c : CommitRecord) : Prop :=
  (s.slot c.slot).state = .dirty → o.commit.map CommitRecord.slot = some c.slot ∧ (o.slot c.slot).state = .dirty

theorem State.recovered_edits (s : State) (c : CommitRecord) : Edits k o s (s.recovered c) := by
  unfold State.recovered
  split
  · exact State.append_edits s _ _ _ _ _
  · exact .refl

theorem State.leaveCommitting_edits (s : State) (i : SlotIx) (hk : k.brings = none) : Edits k o s (s.leaveCommitting i) := by
  unfold State.leaveCommitting
  split
  · exact (Edit.move i .clean nofun (fun _ => .inr hk) nofun).edits
  · rename_i hdirty
    have hmove : Edits k o s (s.moveTo i .dirty) := (Edit.move i .dirty nofun nofun fun _ => .inl hdirty).edits
    exact (((hmove.trans (State.giveDeadlines_edits _ i)).trans (State.fullPage_edits _ i)).trans (State.pfwSeal_edits _ i)).trans
      (State.highWater_edits _)

theorem State.endCommit_edits (s : State) : Edits k o s s.endCommit :=
  ((State.engine_edits s none none .none s.condition).trans (State.serveWaiting_edits _)).trans (State.drainCheck_edits _)

theorem State.commitSucceeded_edits (s : State) (c : CommitRecord) (hk : k.brings = none) : Edits k o s (s.commitSucceeded c) :=
  ((State.leaveCommitting_edits s _ hk).trans (State.recovered_edits _ c)).trans (State.endCommit_edits _)

theorem State.pin_edits (s : State) (i : SlotIx) (add : OffsetSet) : Edits k o s (s.pin i add) := by
  have hadd : Slot.Edited k o s i ((s.slot i).addBack add s.now) := by
    refine { since := fun _ => ?_ }
    by_cases h : (s.slot i).dirty = 0
    · exact .inr (.inl ⟨h, by simp [h]⟩)
    · refine .inl ⟨if_neg h, fun _ => ?_⟩
      simpa [BitVec.or_eq_zero_iff] using fun h' => absurd h' h
  exact (Edit.slot i (fun x => x.addBack add s.now) hadd).edits.trans (Edit.move i .pinned nofun nofun nofun).edits

theorem State.logPinned_edits (s : State) (c : CommitRecord) (cause : Byte) : Edits k o s (s.logPinned c cause) :=
  State.append_edits s _ _ _ _ _

theorem State.startMapWrite_edits (s : State) (c : CommitRecord) (purpose : MapPurpose) (hk : k.programs = false) :
    Edits k o s (s.startMapWrite c purpose) := by
  unfold State.startMapWrite
  exact (State.engine_edits s (some _) (some _) s.owner s.condition).trans (State.issueLoad_edits _ hk)

theorem State.spareSnapshot_edits (s : State) (c : CommitRecord) (sp : SpareIx) (hk : k.programs = false)
    (hc : CommitSlotDirtyOnlyFrom o s c) : Edits k o s (s.spareSnapshot c sp) := by
  have hempty : Edits k o s (s.modSlot c.slot fun x => { x with dirty := 0, dirtySince := none }) :=
    (Edit.slot c.slot _ { since := fun h => .inr (.inr (hc h)) }).edits
  exact (hempty.trans (State.engine_edits _ _ s.writer s.owner s.condition)).trans (State.issueLoad_edits _ hk)

/-- Answering the ports that wait changes no slot's state. -/
theorem State.answerWaiters_state (s : State) (i j : SlotIx) : ((s.answerWaiters i).slot j).state = (s.slot j).state := by
  have hone : ∀ (m : State) (p : PortId), ((State.answerWaiter i m p).slot j).state = (m.slot j).state := by
    intro m p
    unfold State.answerWaiter
    split
    · split
      · rw [State.answer, State.slot_modPort, State.slot_modSlot]
        split
        · rw [Slot.setWait_state, ‹i = j›]
        · rfl
      · rfl
    · rfl
  simp only [State.answerWaiters, List.foldl_cons, List.foldl_nil, hone]

theorem State.completeBackfill_edits (s : State) (c : CommitRecord) (hk : k.programs = false)
    (hc : CommitSlotDirtyOnlyFrom o s c) : Edits k o s (s.completeBackfill c) := by
  have hland := (State.land_edits (k := k) (o := o) s c.slot (fun k => s.chip.read c.attempt.target k) c.backfill).trans
    (State.answerWaiters_edits _ c.slot)
  unfold State.completeBackfill
  dsimp only
  split
  · refine hland.trans (State.spareSnapshot_edits _ c _ hk fun hdirty => hc ?_)
    rw [State.answerWaiters_state, State.slot_modSlot_same] at hdirty
    exact hdirty
  · exact hland

theorem State.pinOutcome_edits (s : State) (c : CommitRecord) (add : OffsetSet) (cause : Byte) :
    Edits k o s (((s.pin c.slot add).logPinned c cause).endCommit) :=
  ((State.pin_edits s c.slot add).trans (State.logPinned_edits _ c cause)).trans (State.endCommit_edits _)

theorem State.startRetirement_edits (s : State) (c : CommitRecord) (failing : OffsetSet) (hk : k.programs = false)
    (hc : CommitSlotDirtyOnlyFrom o s c) : Edits k o s (s.startRetirement c failing) := by
  unfold State.startRetirement
  split
  · exact State.pinOutcome_edits s c failing pinnedNoSpare
  · dsimp only
    have hrecord := State.engine_edits (k := k) (o := o) s (some { c with phase := .retireBackfill
                                                                          attempt := { c.attempt with failing := some failing }
                                                                          backfill := ~~~(s.slot c.slot).present
                                                                          homeFailing := failing }) s.writer s.owner s.condition
    split
    · exact hrecord.trans (State.completeBackfill_edits _ _ hk hc)
    · exact hrecord

theorem State.spareSuccess_edits (s : State) (c : CommitRecord) (sp : SpareIx) (hk : k.programs = false) :
    Edits k o s (s.spareSuccess c sp) := by
  unfold State.spareSuccess
  dsimp only
  split
  · exact ((State.append_edits s _ _ _ _ _).trans (State.append_edits _ _ _ _ _ _)).trans (State.startMapWrite_edits _ _ _ hk)
  · exact (State.append_edits s _ _ _ _ _).trans (State.startMapWrite_edits _ _ _ hk)

theorem State.spareDeath_edits (s : State) (c : CommitRecord) (sp : SpareIx) (failing : OffsetSet) (hk : k.programs = false)
    (hc : CommitSlotDirtyOnlyFrom o s c) : Edits k o s (s.spareDeath c sp failing) := by
  unfold State.spareDeath
  dsimp only
  split
  · exact (State.append_edits s _ _ _ _ _).trans (State.spareSnapshot_edits _ _ _ hk hc)
  · exact (State.append_edits s _ _ _ _ _).trans (State.startMapWrite_edits _ _ _ hk)

theorem State.makeCurrent_edits (s : State) (w : MapWriter) (hk : k.remaps = true) : Edits k o s (s.makeCurrent w) :=
  Rest.edits { remap := .inr hk }

theorem State.mapWriteSucceeded_edits (s : State) (c : CommitRecord) (w : MapWriter) (hk : k.remaps = true)
    (hb : k.brings = none) : Edits k o s (s.mapWriteSucceeded c w) := by
  have h := (State.adopt_edits (o := o) s c hk).trans (State.makeCurrent_edits _ w hk)
  unfold State.mapWriteSucceeded
  dsimp only
  split
  · exact h.trans (State.commitSucceeded_edits _ c hb)
  · exact h.trans (State.pinOutcome_edits _ c fullSet pinnedNoSpare)
  · exact h
  · exact h

theorem State.mapWriteFailed_edits (s : State) (c : CommitRecord) (w : MapWriter) (failing : OffsetSet) (hk : k.remaps = true)
    (hb : k.brings = none) : Edits k o s (s.mapWriteFailed c w failing) := by
  have h := ((State.adopt_edits (o := o) s c hk).trans (State.append_edits _ .mapWriteFail (some c.page) (some w.attempt.target)
    (some (card failing)) w.purpose.failDetail)).trans (State.enterDegraded_edits _ .mapWriteFail)
  unfold State.mapWriteFailed
  dsimp only
  split
  · exact h.trans (State.commitSucceeded_edits _ c hb)
  · exact h.trans (State.pinOutcome_edits _ c fullSet pinnedNoSpare)
  · exact h
  · exact h

theorem State.dropWriter_edits (s : State) : Edits k o s s.dropWriter := State.engine_edits s s.commit none .none s.condition

theorem State.formatSucceeded_edits (s : State) (w : MapWriter) (hk : k.programs = false) (hr : k.remaps = true) :
    Edits k o s (s.formatSucceeded w) := by
  unfold State.formatSucceeded
  split
  · exact (State.engine_edits s s.commit _ s.owner s.condition).trans (State.issueLoad_edits _ hk)
  · have hremap : Edits k o s { s with remap := { live := [], dead := 0, copy := some 0, sequence := some 1 } } :=
      Rest.edits { remap := .inr hr }
    exact (((hremap.trans (State.append_edits _ _ _ _ _ _)).trans (State.dropWriter_edits _)).trans
      (State.enterRunning_edits _)).trans (State.endLong_edits _ _)
  · exact .refl
  · exact .refl

theorem State.formatFailed_edits (s : State) (w : MapWriter) (failing : OffsetSet) : Edits k o s (s.formatFailed w failing) :=
  ((State.append_edits s _ _ _ _ _).trans (State.dropWriter_edits _)).trans (State.endLong_edits _ _)

/-- The end of a verify: the commit's slot is DIRTY only where it was so at the event's beginning. -/
theorem State.verified_edits (s : State) (failing : OffsetSet) (hk : k.programs = false) (hr : k.remaps = true)
    (hb : k.brings = none) (hcommit : o.commit = s.commit) (hslots : o.slots = s.slots) : Edits k o s (s.verified failing) := by
  have hc : ∀ c, s.commit = some c → CommitSlotDirtyOnlyFrom o s c := fun c h hdirty => by
    rw [hcommit, h]
    refine ⟨rfl, ?_⟩
    unfold State.slot at hdirty ⊢
    rwa [hslots]
  unfold State.verified
  split
  · unfold State.verifyMap
    split
    · exact (State.setAttempt_rest s _).edits
    · split
      · split
        · exact State.mapWriteSucceeded_edits s _ _ hr hb
        · exact State.mapWriteFailed_edits s _ _ failing hr hb
      · split
        · exact State.formatSucceeded_edits s _ hk hr
        · exact State.formatFailed_edits s _ failing
  · rename_i c _ hcommit
    split
    · unfold State.verifyHome
      split
      · exact State.commitSucceeded_edits s c hb
      · split
        · exact (State.setAttempt_rest s _).edits
        · exact State.startRetirement_edits s c failing hk (hc c hcommit)
    · unfold State.verifySpare
      split
      · exact State.spareSuccess_edits s c _ hk
      · split
        · exact (State.setAttempt_rest s _).edits
        · exact State.spareDeath_edits s c _ failing hk (hc c hcommit)
    · exact .refl
  · exact .refl

/-- The outcome of an array timeout on a commit, with the page polled and the bytes added back. -/
def State.timeoutOutcome (s : State) (c : CommitRecord) (target : Nat) (detail : Byte) (add : OffsetSet) : State :=
  { ((((s.append .arrayTimeout (some c.page) (some target) none detail).pin c.slot add).logPinned c pinnedByTimeout).enterDegraded
      .arrayTimeout) with commit := none, writer := none, owner := .none, condition := .unsettled }

theorem State.timeoutOutcome_edits (s : State) (c : CommitRecord) (target : Nat) (detail : Byte) (add : OffsetSet) :
    Edits k o s (s.timeoutOutcome c target detail add) :=
  (((State.append_edits s _ _ _ _ _).trans (State.pin_edits _ c.slot add)).trans (State.logPinned_edits _ c _)).trans
    ((State.enterDegraded_edits _ _).trans (State.engine_edits _ none none .none .unsettled))

/-- What a poll deadline does to a commit, by the page polled (R80, R116). -/
theorem State.commitTimeout_eq (s : State) (c : CommitRecord) : s.commitTimeout c = (match s.writer, c.phase with
    | some w, _ => (s.adopt c).timeoutOutcome c w.attempt.target timeoutMap fullSet
    | none, .home => s.timeoutOutcome c c.attempt.target timeoutHome c.attempt.loadSet
    | none, _ => (s.adopt { c with tentative := none }).timeoutOutcome c c.attempt.target timeoutSpare fullSet) := by
  unfold State.commitTimeout
  rfl

theorem State.commitTimeout_edits (s : State) (c : CommitRecord) (hr : k.remaps = true) : Edits k o s (s.commitTimeout c) := by
  have h : ∀ (d : CommitRecord) (target : Nat) (detail : Byte) (add : OffsetSet),
      Edits k o s ((s.adopt d).timeoutOutcome c target detail add) := fun d target detail add =>
    (State.adopt_edits s d hr).trans (State.timeoutOutcome_edits _ c target detail add)
  rw [State.commitTimeout_eq]
  cases s.writer with
  | some w => exact h ..
  | none =>
    cases c.phase with
    | home => exact State.timeoutOutcome_edits ..
    | retireBackfill => exact h ..
    | spareLoad => exact h ..
    | mapWrite => exact h ..

theorem State.formatTimeout_edits (s : State) (w : MapWriter) : Edits k o s (s.formatTimeout w) := by
  have hdrop : ∀ m : State, Edits k o m { m.dropWriter with condition := .unsettled } := fun m =>
    State.engine_edits m m.commit none .none .unsettled
  unfold State.formatTimeout
  exact (((State.append_edits s _ _ _ _ _).trans (State.enterDegraded_edits _ _)).trans (hdrop _)).trans (State.endLong_edits _ _)

/-! ### The commands -/

theorem State.respond_edits (s : State) (code : Byte) (result : Result) {payload : List Byte} (h : payload.length ≤ 30) :
    Edits k o s (s.respond code result payload) := Rest.edits { response := fun _ => Nat.succ_le_succ (Nat.succ_le_succ h) }

/-- What the checks have passed: the store state that the command needs, and a value in its range (R173). -/
theorem State.refusal_none {code : Byte} {args : List Byte} {overflow : Bool} (h : s.refusal code args overflow = none) :
    s.stateForbids code args = false ∧ valueOutside code args = false := by
  unfold State.refusal at h
  split at h
  · cases h
  · split at h
    · cases h
    · repeat' split at h
      all_goals simp_all

theorem pageField_length (p : Option Nat) : (pageField p).length = 2 := by cases p <;> rfl

theorem addressField_length (a : Option (BitVec 17)) : (addressField a).length = 3 := by cases a <;> rfl

theorem Params.set_ok {q : Params} {ident : Byte} {value : Nat} (h : q.ok) (hrange : paramRange ident value = true) :
    (q.set ident value).ok := by
  obtain ⟨hsettle, hage, hhigh, hstall, hretries⟩ := h
  unfold paramRange at hrange
  unfold Params.set
  generalize ident.toNat = n at hrange
  split at hrange <;> simp only [Bool.and_eq_true, decide_eq_true_eq] at hrange
  · exact ⟨hrange, hage, hhigh, hstall, hretries⟩
  · exact ⟨hsettle, hrange, hhigh, hstall, hretries⟩
  · exact ⟨hsettle, hage, hrange, hstall, hretries⟩
  · exact ⟨hsettle, hage, hhigh, hrange, hretries⟩
  · exact ⟨hsettle, hage, hhigh, hstall, hrange⟩
  · exact ⟨hsettle, hage, hhigh, hstall, hretries⟩
  · exact ⟨hsettle, hage, hhigh, hstall, hretries⟩

theorem State.doConfigSet_edits (s : State) {args : List Byte} (hk : k.configures = true)
    (hrange : valueOutside 0x03 args = false) : Edits k o s (s.doConfigSet args) := by
  have hvalue : paramRange (argument args) (configValue args) = true := by simpa [valueOutside] using hrange
  have hparams : Edits k o s { s with params := s.params.set (argument args) (configValue args) } :=
    Rest.edits { params := .inr hk, paramsOk := fun h => Params.set_ok h hvalue }
  unfold State.doConfigSet
  dsimp only
  split
  · exact (hparams.trans (State.highWater_edits _)).trans (State.respond_edits _ _ _ (by simp [le16]))
  · exact hparams.trans (State.respond_edits _ _ _ (by simp [le16]))

/-- DRAINING is entered with no deadline standing. -/
theorem State.startDrain_edits (hrun : s.store.state = .running) (hno : ∀ i, (s.slot i).settle = none ∧ (s.slot i).age = none) :
    Edits k o s { s with store := { s.store with state := .draining }, mgmt := { s.mgmt with long := .quiesce } } :=
  Rest.edits { store := fun h => by simpa [Store.fieldsOk, hrun] using h, deadlines := fun _ _ => hno }

theorem State.doQuiesce_edits (s : State) (hrun : s.store.state = .running) : Edits k o s s.doQuiesce := by
  have hstore : s.sealAll.clearDeadlines.store.state = .running := by
    rw [← hrun, State.clearDeadlines_frame, State.sealAll_frame]
  have hdrain := (State.startDrain_edits (k := k) (o := o) hstore fun i => by
    rw [State.slot_clearDeadlines]; exact ⟨rfl, rfl⟩)
  have h := ((State.sealAll_edits s).trans (State.clearDeadlines_edits _)).trans hdrain
  unfold State.doQuiesce
  dsimp only
  split
  · exact (h.trans (State.enterQuiesced_edits rfl)).trans (State.respond_edits _ _ _ (Nat.zero_le _))
  · exact h.trans (State.respond_edits _ _ _ (Nat.zero_le _))

theorem State.invalidateSlot_edits (s : State) (i : SlotIx) (hk : k.drops = true) : Edits k o s (s.invalidateSlot i) := by
  unfold State.invalidateSlot
  split
  · exact .refl
  · exact (Edit.slot i Slot.invalidate { bytes := fun h => by simp [hk] at h }).edits.trans (State.releaseIfEmpty_edits _ i)

/-- STARTING is entered from a state without deadlines. -/
theorem State.startHold_edits (cause : Option Cause) (origin : Origin) (hs : s.store.state ≠ .running) (hc : cause = none) :
    Edits k o s ({ s with store := { s.store with state := .starting, cause := cause, origin := some origin } } : State).beginHold :=
  State.store_edits s _ (fun _ => by simp [Store.fieldsOk, hc]) fun h => absurd h hs

theorem State.doResume_edits (s : State) (hk : k.drops = true) (hq : s.store.state = .quiesced) : Edits k o s s.doResume := by
  have hm : Edits k o s { s with mgmt := { s.mgmt with long := .resume }, driven := true, condition := .unsettled } := Rest.edits {}
  have hn := hm.trans (Edits.foldl (fun s i => State.invalidateSlot_edits s i hk) allSlots _)
  unfold State.doResume
  dsimp only
  generalize hv : ({ s with mgmt := { s.mgmt with long := .resume }, driven := true, condition := .unsettled } : State) = v at hn
  have hvs : v.store.state ≠ .running := by rw [← hv]; simp [hq]
  have hstore : (allSlots.foldl State.invalidateSlot v).store.state ≠ .running := by
    rwa [OnlySlots.foldl State.invalidateSlot_frame]
  generalize allSlots.foldl State.invalidateSlot v = n at hn hstore
  exact (hn.trans (State.startHold_edits none .resume hstore rfl)).trans (State.respond_edits _ _ _ (Nat.zero_le _))

theorem State.dropAll_edits (s : State) (hk : k.drops = true) (hr : k.remaps = true) : Edits k o s s.dropAll := by
  refine (Edit.clear hk).edits.trans (Rest.edits { fairness := fun _ => Nat.zero_le 4, store := fun _ => by simp [State.dropAll, Store.fieldsOk]
                                                   remap := .inr hr, deadlines := fun _ _ i => ?_ })
  have hslot : s.clearSlots.slot i = Slot.reset := by simp [State.slot, State.clearSlots]
  rw [hslot]
  exact ⟨rfl, rfl⟩

theorem State.doRestart_edits (s : State) (hk : k.drops = true) (hr : k.remaps = true) : Edits k o s s.doRestart :=
  (((((State.dropAll_edits s hk hr).trans (State.serveRestarted_edits _ _ hk)).trans (State.orderRequests_edits _ 0)).trans
    (State.append_edits _ _ _ _ _ _)).trans (State.tryHold_edits _)).trans (State.respond_edits _ _ _ (Nat.zero_le _))

theorem State.doLogRead_edits (s : State) : Edits k o s s.doLogRead := by
  unfold State.doLogRead
  split
  · exact State.respond_edits s _ _ (Nat.zero_le _)
  · refine (Rest.edits (u := { s with log := { s.log with records := markFirstUnread s.log.records, unread := s.log.unread - 1 } })
      { log := FaultLog.mark_ok }).trans (State.respond_edits _ _ _ ?_)
    simp [recordPayload, pageField_length, le16]

theorem State.doRetry_edits (s : State) : Edits k o s s.doRetry :=
  ((State.retrySeals_edits s).trans (Edits.foldl (fun _ i => (Edit.move i .sealed nofun nofun nofun).edits) _ _)).trans
    (State.respond_edits _ _ _ (by simp))

theorem State.discardSlot_edits (s : State) (i : SlotIx) (hk : k.drops = true) : Edits k o s (s.discardSlot i) := by
  have hdrop : ∀ m : State, Edits k o m m.dropReading := fun m => Rest.edits {}
  have h : ∀ m : State, Edits k o m ((m.withdrawFill i).freeSlot i) := fun m =>
    (State.withdrawFill_edits m i).trans (Edit.free i (.inr hk)).edits
  unfold State.discardSlot
  dsimp only
  split
  · exact ((State.append_edits s _ _ _ _ _).trans (hdrop _)).trans (h _)
  · exact (State.append_edits s _ _ _ _ _).trans (h _)

theorem State.doDiscard_edits (s : State) (args : List Byte) (hk : k.drops = true) : Edits k o s (s.doDiscard args) :=
  (((Edits.foldl (fun s i => State.discardSlot_edits s i hk) _ s).trans (State.serveRestarted_edits _ _ hk)).trans
    (State.orderRequests_edits _ _)).trans (State.respond_edits _ _ _ (by simp))

theorem State.doPortError_edits (s : State) (args : List Byte) : Edits k o s (s.doPortError args) := by
  unfold State.doPortError State.modPort
  dsimp only
  refine (State.setPort_rest (p := portOf (argument args)) (h := { s.port (portOf (argument args)) with
    lastError := LastError.cleared }) fun h => .inl ⟨rfl, h⟩).edits.trans (State.respond_edits _ _ _ ?_)
  simp [errorPayload, addressField_length]

theorem State.doMapFormat_edits (s : State) : Edits k o s s.doMapFormat :=
  (Rest.edits (u := { s with mgmt := { s.mgmt with long := .mapFormat }, writer := some (format0Writer s.capacity),
                             engineReq := some .mapWriter, fairness := 0 }) { fairness := fun _ => Nat.zero_le 4 }).trans
    (State.respond_edits _ _ _ (Nat.zero_le _))

/-- What the byte of a command must be entitled to: CONFIG_SET sets a parameter, RESTART the table, and RESUME, RESTART and DISCARD
drop bytes. -/
structure Scope.Grants (k : Scope) (code : Byte) : Prop where
  configures : code.toNat = 0x03 → k.configures = true
  remaps : code.toNat = 0x07 → k.remaps = true
  drops : code.toNat = 0x06 ∨ code.toNat = 0x07 ∨ code.toNat = 0x0D → k.drops = true

theorem State.effect_edits (s : State) {code : Byte} {args : List Byte} (hk : k.Grants code)
    (hstate : s.stateForbids code args = false) (hvalue : valueOutside code args = false) : Edits k o s (s.effect code args) := by
  have hcode : ∀ n : Nat, n < 256 → code.toNat = n → code = BitVec.ofNat 8 n := fun n hn h => by
    rw [← h, BitVec.ofNat_toNat, BitVec.setWidth_eq]
  unfold State.stateForbids at hstate
  unfold State.effect
  split <;> rename_i hc <;> simp only [hc] at hstate
  · exact State.respond_edits s _ _ (by simp [State.statusPayload, le16])
  · exact State.respond_edits s _ _ (by simp [le16])
  · exact State.doConfigSet_edits s (hk.configures hc) (by rwa [hcode 3 (by decide) hc] at hvalue)
  · exact (State.sealAll_edits s).trans (State.respond_edits _ _ _ (by simp))
  · exact State.doQuiesce_edits s (by simpa using hstate)
  · exact State.doResume_edits s (hk.drops (.inl hc)) (by simp at hstate; exact hstate.1)
  · exact State.doRestart_edits s (hk.drops (.inr (.inl hc))) (hk.remaps hc)
  · exact State.doLogRead_edits s
  · exact State.respond_edits s _ _ (by simp [State.slotPayload, pageField_length, setField])
  · unfold State.doMapRead
    split
    · exact State.respond_edits s _ _ (by simp [State.entryPayload, pageField_length])
    · exact State.respond_edits s _ _ (Nat.zero_le _)
  · exact State.doPortError_edits s args
  · exact State.doRetry_edits s
  · exact State.doDiscard_edits s args (hk.drops (.inr (.inr hc)))
  · exact State.doMapFormat_edits s
  · exact .refl

theorem State.runCommand_edits (s : State) {code : Byte} {args : List Byte} {overflow : Bool} (hk : k.Grants code) :
    Edits k o s (s.runCommand code args overflow) := by
  unfold State.runCommand
  split
  · exact State.respond_edits s _ _ (Nat.zero_le _)
  · obtain ⟨hstate, hvalue⟩ := State.refusal_none ‹_›
    exact State.effect_edits s hk hstate hvalue

theorem State.commandEvent_edits (s : State) (code : Byte) (args : List Byte) (hk : k.Grants code) (hp : k.programs = false) :
    Edits k o s (s.commandEvent code args) := by
  unfold State.commandEvent
  split
  · exact (State.runCommand_edits s hk).trans (State.finish_edits _ hp)
  · exact .refl

end Sys2Proof.Machine

/-! PROOF. Every command, in every state, is a chain of edits within what the command is entitled to. -/

namespace Sys2Proof.Machine

variable {k : Scope} {o s : State}

/-- What a command is entitled to in a state: all of it is read off the command, but for the page of a write it brings and whether it
may drop bytes. -/
def State.scope (s : State) (c : Instr) : Scope where
  brings := match c with
    | .accessArrival _ _ wr addr _ _ => if wr then some (addr.toNat / 64) else none
    | _ => none
  remaps := c.remaps
  configures := c.configures
  straps := c.samplesStraps
  programs := c.endsProgramming
  worn := c.worn
  drops := match c with
    | .resume _ _ => true
    | .restart _ _ => true
    | .discard _ _ => true
    | .startCondition _ => s.endsDropping
    | .stopCondition _ => s.endsDropping
    | .resetNFall _ => true
    | _ => false

/-- An event that begins in state `o` is answered with a next state that a chain of edits reaches. -/
def Scoped (k : Scope) (o : State) (out : Host.Outcome State Fault Refusal) : Prop := ∃ u, out = .next u ∧ Edits k o o u

theorem Edits.scoped {u : State} (h : Edits k o o u) : Scoped k o (.next u) := ⟨u, rfl, h⟩

/-! ### Host ports -/

theorem State.takeAccess_edits (s : State) (p : PortId) (acc : Access) (hidle : (s.port p).state = .idle) :
    Edits k o s (s.takeAccess p acc) := by
  have hport : Edits k o s (s.modPort p fun h => { h with access := some acc, req := true, reqSpent := true }) :=
    State.setPort_edits (by simp [hidle])
  exact hport.trans (Rest.edits {})

theorem State.arrive_edits (s : State) (p : PortId) (acc : Access) (hidle : (s.port p).state = .idle)
    (hbrings : acc.write = true → k.brings = some acc.page) : Edits k s s (s.arrive p acc) := by
  have htake : Edits k s s (s.takeAccess p acc) := State.takeAccess_edits s p acc hidle
  have hslots : (s.takeAccess p acc).slots = s.slots := by cases p <;> rfl
  have hacc : ((s.takeAccess p acc).port p).access = some acc := by cases p <;> rfl
  unfold State.arrive
  dsimp only
  split
  · exact htake.trans (State.answerNotReady_edits _ p)
  · exact htake.trans (State.answerError_edits _ p _ _)
  · split
    · exact htake.trans (State.writePath_edits p hacc (hbrings ‹_›) hslots)
    · exact htake.trans (State.readPath_edits p acc (.inl hslots))

/-- A change of the REQ levels alone. -/
theorem State.req_edits (s : State) (p : PortId) (req spent : Bool) :
    Edits k o s (s.setPort p { s.port p with req := req, reqSpent := spent }) :=
  (State.setPort_rest (h := { s.port p with req := req, reqSpent := spent }) fun h => .inl ⟨rfl, h⟩).edits

/-- An answer removed brings no waiting write. -/
theorem State.withdrawPort_edits (s : State) (p : PortId) : Edits k o s (s.modPort p HostPort.withdraw) :=
  (State.setPort_rest (h := (s.port p).withdraw) fun h => .inl ⟨rfl, h⟩).edits

theorem State.dropReading_edits (s : State) : Edits k o s s.dropReading := Rest.edits {}

theorem State.expireFill_edits (s : State) (p : PortId) (i : SlotIx) : Edits k o s (s.expireFill p i) := by
  unfold State.expireFill
  dsimp only
  split
  · exact (((State.setWait_edits s i p none).trans (State.withdrawFill_edits _ i)).trans (State.releaseIfEmpty_edits _ i)).trans
      (State.answerError_edits _ p _ _)
  · exact (State.setWait_edits s i p none).trans (State.answerError_edits _ p _ _)

theorem State.expireBypass_edits (s : State) (p : PortId) : Edits k o s (s.expireBypass p) := by
  unfold State.expireBypass
  dsimp only
  split
  · exact (Rest.edits (u := { s with requests := s.requests.erase (.bypass p) }) {}).trans (State.answerError_edits _ p _ _)
  · split
    · exact (State.dropReading_edits s).trans (State.answerError_edits _ p _ _)
    · exact State.answerError_edits _ p _ _

theorem execAccessArrival_scoped (t : Time) (p : PortId) (wr : Bool) (addr : BitVec 17) (size : BitVec 2) (wd : BitVec 32) (s : State) :
    Scoped (s.scope (.accessArrival t p wr addr size wd)) (s.tick t) (execAccessArrival t p wr addr size wd s) := by
  refine Edits.scoped ?_
  split
  · exact State.req_edits _ p true true
  · split
    · split
      · exact State.req_edits _ p true _
      · exact .refl
    · split
      · exact .refl
      · rename_i hidle _ _
        refine (State.arrive_edits _ p _ (Classical.not_not.1 hidle) fun hw => ?_).trans (State.finish_edits _ rfl)
        exact if_pos hw

theorem execReqRemoved_scoped (t : Time) (p : PortId) (s : State) :
    Scoped (s.scope (.reqRemoved t p)) (s.tick t) (execReqRemoved t p s) := by
  refine Edits.scoped (State.setPort_rest fun h => .inl ?_).edits
  dsimp only at h ⊢
  split at h
  · rw [if_pos ‹_›]
    exact ⟨rfl, h⟩
  · rw [if_neg ‹_›]
    exact ⟨rfl, h⟩

theorem execRdyPulseEnd_scoped (t : Time) (p : PortId) (s : State) :
    Scoped (s.scope (.rdyPulseEnd t p)) (s.tick t) (execRdyPulseEnd t p s) := by
  refine Edits.scoped ?_
  split
  · exact State.withdrawPort_edits _ p
  · exact .refl

theorem execStallExpiry_scoped (t : Time) (p : PortId) (s : State) :
    Scoped (s.scope (.stallExpiry t p)) (s.tick t) (execStallExpiry t p s) := by
  have hend : ∀ m : State, Edits (s.scope (.stallExpiry t p)) (s.tick t) m m.serveWaiting.finish := fun m =>
    (State.serveWaiting_edits m).trans (State.finish_edits _ rfl)
  refine Edits.scoped ?_
  split
  · split
    · exact (State.expireFill_edits _ p _).trans (hend _)
    · exact (State.expireBypass_edits _ p).trans (hend _)
    · exact (State.answerError_edits _ p _ _).trans (hend _)
    · exact .refl
  · exact .refl

/-! ### Array reads -/

/-- The array bytes found changed: those the command tells, and the latch stands. -/
theorem State.worn_edits (s : State) : Edits k o s (s.observe k.worn) :=
  Rest.edits { cells := State.observe_wf k.worn, bytes := fun _ ha hlatch => ⟨Memory.read_observe_other ha, hlatch⟩ }

theorem execFillCompletion_scoped (t : Time) (worn : List Host.Cell) (s : State) :
    Scoped (s.scope (.fillCompletion t worn)) (s.tick t) (execFillCompletion t worn s) := by
  have hland : ∀ (i : SlotIx) (g : Reading) (m : State), Edits (s.scope (.fillCompletion t worn)) (s.tick t) m
      (m.landReading i g) := fun i g m => by
    unfold State.landReading
    split
    · exact .refl
    · exact State.completeFill_edits m i _ _
  refine Edits.scoped ?_
  split
  · split
    · exact ((((State.worn_edits _).trans (hland _ _ _)).trans (State.serveWaiting_edits _)).trans (State.endReading_edits _)).trans
        (State.finish_edits _ rfl)
    · exact .refl
    · exact .refl
  · exact .refl

theorem State.deliverBypass_edits (s : State) (p : PortId) (g : Reading) : Edits k o s (s.deliverBypass p g) := by
  unfold State.deliverBypass
  split
  · exact .refl
  · split
    · exact State.answer_edits s p _
    · exact .refl

theorem execBypassCompletion_scoped (t : Time) (worn : List Host.Cell) (s : State) :
    Scoped (s.scope (.bypassCompletion t worn)) (s.tick t) (execBypassCompletion t worn s) := by
  refine Edits.scoped ?_
  split
  · split
    · exact (((State.worn_edits _).trans (State.deliverBypass_edits _ _ _)).trans (State.endReading_edits _)).trans
        (State.finish_edits _ rfl)
    · exact .refl
    · exact .refl
  · exact .refl

/-! ### Seals -/

theorem State.due_seal_edits (m : State) (i : SlotIx) (d : Option Time) (hk : k.programs = false) :
    Edits k o m (if m.due d then (m.sealNamed i).finish else m) := by
  split
  · exact (State.sealNamed_edits m i).trans (State.finish_edits _ hk)
  · exact .refl

theorem execFlushRisingEdge_scoped (t : Time) (s : State) :
    Scoped (s.scope (.flushRisingEdge t)) (s.tick t) (execFlushRisingEdge t s) := by
  refine Edits.scoped ?_
  split
  · exact ((Rest.edits {}).trans (State.sealAll_edits _)).trans (State.finish_edits _ rfl)
  · exact .refl

theorem execPfwAssertionEdge_scoped (t : Time) (s : State) :
    Scoped (s.scope (.pfwAssertionEdge t)) (s.tick t) (execPfwAssertionEdge t s) := by
  refine Edits.scoped ?_
  split
  · exact (((Rest.edits {}).trans (State.sealAll_edits _)).trans (State.refuseWrites_edits _ _ _)).trans (State.finish_edits _ rfl)
  · exact .refl

theorem execFlushFallingEdge_scoped (t : Time) (s : State) :
    Scoped (s.scope (.flushFallingEdge t)) (s.tick t) (execFlushFallingEdge t s) := by
  refine Edits.scoped ?_
  split
  · exact Rest.edits {}
  · exact .refl

theorem execPfwDeassertionEdge_scoped (t : Time) (s : State) :
    Scoped (s.scope (.pfwDeassertionEdge t)) (s.tick t) (execPfwDeassertionEdge t s) := by
  refine Edits.scoped ?_
  split
  · exact Rest.edits {}
  · exact .refl

/-! ### The commit engine and the map writer -/

theorem execPageLoad_scoped (t : Time) (s : State) : Scoped (s.scope (.pageLoad t)) (s.tick t) (execPageLoad t s) := by
  refine Edits.scoped ?_
  split
  · exact State.issueLoad_edits _ rfl
  · exact .refl

theorem execLapseEnd_scoped (t : Time) (s : State) : Scoped (s.scope (.lapseEnd t)) (s.tick t) (execLapseEnd t s) := by
  refine Edits.scoped ?_
  split
  · split
    · exact (State.setAttempt_rest _ _).edits.trans (State.load_edits _ _ _ .programming rfl (by simp))
    · exact .refl
  · exact .refl

/-- The array with programming ended, or ended when it must have: only latched offsets of the latch page change. -/
theorem State.chip_ends_edits (s : State) (c : Chip) (hk : k.programs = true) (hc : c = s.chip.finish ∨ c = s.chip) :
    Edits k o s { s with chip := c } := by
  rcases hc with rfl | rfl
  · exact Rest.edits { cells := Chip.finish_wf
                       bytes := fun a _ hlatch => ⟨Memory.read_writeLatch_other (hlatch hk), fun _ e he => absurd he List.not_mem_nil⟩ }
  · exact Rest.edits {}

theorem Chip.advance_cases (c : Chip) (now : Time) : c.advance now = c.finish ∨ c.advance now = c := by
  unfold Chip.advance
  split
  · exact .inl rfl
  · exact .inr rfl

theorem execPollRead_scoped (t : Time) (ended : Bool) (worn : List Host.Cell) (s : State) :
    Scoped (s.scope (.pollRead t ended worn)) (s.tick t) (execPollRead t ended worn s) := by
  have harray : ∀ m : State, Edits (s.scope (.pollRead t ended worn)) (s.tick t) m (m.pollArray ended worn) := fun m => by
    refine (State.chip_ends_edits m _ rfl ?_).trans (State.worn_edits _)
    split
    · exact .inl rfl
    · exact Chip.advance_cases _ _
  refine Edits.scoped ?_
  split
  · split
    · dsimp only
      split
      · exact harray _
      · exact ((harray _).trans (State.setAttempt_rest _ _).edits).trans (Rest.edits {})
    · exact .refl
  · exact .refl

theorem execPollDeadlineExpiry_scoped (t : Time) (s : State) :
    Scoped (s.scope (.pollDeadlineExpiry t)) (s.tick t) (execPollDeadlineExpiry t s) := by
  refine Edits.scoped ?_
  split
  · split
    · split
      · exact (State.commitTimeout_edits _ _ rfl).trans (State.finish_edits _ rfl)
      · exact (State.formatTimeout_edits _ _).trans (State.finish_edits _ rfl)
      · exact .refl
    · exact .refl
  · exact .refl

theorem execVerifyComplete_scoped (t : Time) (worn : List Host.Cell) (s : State) :
    Scoped (s.scope (.verifyComplete t worn)) (s.tick t) (execVerifyComplete t worn s) := by
  have hworn : Edits (s.scope (.verifyComplete t worn)) (s.tick t) (s.tick t) ((s.tick t).observe worn) := State.worn_edits _
  refine Edits.scoped ?_
  split
  · exact (hworn.trans (State.verified_edits _ _ rfl rfl rfl rfl rfl)).trans (State.finish_edits _ rfl)
  · exact .refl

theorem execRetireBackfillComplete_scoped (t : Time) (worn : List Host.Cell) (s : State) :
    Scoped (s.scope (.retireBackfillComplete t worn)) (s.tick t) (execRetireBackfillComplete t worn s) := by
  have hworn : Edits (s.scope (.retireBackfillComplete t worn)) (s.tick t) (s.tick t) ((s.tick t).observe worn) :=
    State.worn_edits _
  refine Edits.scoped ?_
  split
  · rename_i c hcommit
    split
    · refine (hworn.trans (State.completeBackfill_edits _ c rfl fun hdirty => ⟨?_, hdirty⟩)).trans (State.finish_edits _ rfl)
      exact congrArg (Option.map CommitRecord.slot) hcommit
    · exact .refl
    · exact .refl
    · exact .refl
  · exact .refl

/-! ### The store controller and the map loader -/

theorem execHoldBegin_scoped (t : Time) (s : State) : Scoped (s.scope (.holdBegin t)) (s.tick t) (execHoldBegin t s) := by
  refine Edits.scoped ?_
  split
  · rename_i hready
    obtain ⟨-, hstart, -, -⟩ := (State.holdReady_iff _).1 hready
    split
    · exact State.beginHold_edits hstart
    · split
      · exact (Rest.edits (u := { s.tick t with reading := none }) {}).trans (State.beginHold_edits hstart)
      · exact .refl
  · exact .refl

theorem execHoldEnd_scoped (t : Time) (s : State) : Scoped (s.scope (.holdEnd t)) (s.tick t) (execHoldEnd t s) := by
  refine Edits.scoped ?_
  split
  · rename_i h
    have hchip := State.chip_ends_edits (k := s.scope (.holdEnd t)) (o := s.tick t) (s.tick t) _ rfl
      (Chip.advance_cases (s.tick t).chip (s.tick t).now)
    refine hchip.trans (Rest.edits { store := fun ⟨hcause, horigin, hphase, _⟩ => ⟨hcause, horigin, ?_, ?_⟩ })
    · simpa [show s.store.phase = some .hold from h.1] using hphase
    · simp
  · exact .refl

theorem State.applySelection_edits (s : State) (sel : Selection) (hk : k.remaps = true) : Edits k o s (s.applySelection sel) := by
  have hremap : ∀ r : Remap, Edits k o s { s with remap := r } := fun r => Rest.edits { remap := .inr hk }
  cases sel with
  | chosen copy table rejected =>
    unfold State.applySelection
    dsimp only
    split
    · exact ((hremap _).trans (State.append_edits _ _ _ _ _ _)).trans (State.enterRunning_edits _)
    · exact (hremap _).trans (State.enterRunning_edits _)
  | invalid reason0 reason1 =>
    unfold State.applySelection
    exact ((hremap _).trans (State.append_edits _ _ _ _ _ _)).trans (State.enterDegraded_edits _ _)

theorem execMapLoadEnd_scoped (t : Time) (worn : List Host.Cell) (s : State) :
    Scoped (s.scope (.mapLoadEnd t worn)) (s.tick t) (execMapLoadEnd t worn s) := by
  refine Edits.scoped ?_
  split
  · exact (((((State.worn_edits _).trans (Rest.edits {})).trans (State.applySelection_edits _ _ rfl)).trans
      (State.endLong_edits _ _)).trans (State.endLong_edits _ _)).trans (State.finish_edits _ rfl)
  · exact .refl

/-- At the fall of RESET_N no port is left waiting for a slot. -/
theorem HostPort.pinReset_idle (h : HostPort) (now : Time) : (h.pinReset now).state = .idle := by
  unfold HostPort.pinReset
  dsimp only
  split
  · rfl
  · split <;> simpa using ‹¬h.state ≠ .idle›

theorem Params.default_ok : Params.default.ok := by decide

theorem execResetNFall_scoped (t : Time) (s : State) : Scoped (s.scope (.resetNFall t)) (s.tick t) (execResetNFall t s) := by
  refine Edits.scoped ?_
  split
  · refine (Edit.clear rfl).edits.trans (Rest.edits
      { log := fun _ => FaultLog.reset_ok, params := .inr rfl, paramsOk := fun _ => Params.default_ok, fairness := fun _ => Nat.zero_le 4
        store := fun _ => by simp [Store.fieldsOk], deadlines := fun _ _ i => ?_, response := fun _ => Nat.zero_le _
        received := fun _ => Nat.zero_le _, remap := .inr rfl, waits := ?_ })
    · have hslot : (s.tick t).clearSlots.slot i = Slot.reset := by simp [State.slot, State.clearSlots]
      rw [hslot]
      exact ⟨rfl, rfl⟩
    · rintro page ⟨p, acc, hwait, -⟩
      cases p
      · exact absurd ((HostPort.pinReset_idle _ _).symm.trans hwait) (by decide)
      · exact absurd ((HostPort.pinReset_idle _ _).symm.trans hwait) (by decide)
  · exact .refl

theorem execResetNRise_scoped (t : Time) (acap : Fin 4) (addr : BitVec 2) (flush pfw : Bool) (s : State) :
    Scoped (s.scope (.resetNRise t acap addr flush pfw)) (s.tick t) (execResetNRise t acap addr flush pfw s) := by
  refine Edits.scoped ?_
  split
  · exact .refl
  · refine (Rest.edits { straps := .inr rfl, waits := ?_ }).trans (State.tryHold_edits _)
    rintro page ⟨p, acc, hwait, hacc⟩
    cases p
    · exact .inl ⟨.a, acc, hwait, hacc⟩
    · exact .inl ⟨.b, acc, hwait, hacc⟩

/-! ### The management port -/

/-- A change of the bus's record that keeps at most four bytes and leaves the response. -/
theorem State.modMgmt_edits (s : State) (f : MgmtPort → MgmtPort) (hresponse : (f s.mgmt).response = s.mgmt.response)
    (hreceived : s.mgmt.received.length ≤ 4 → (f s.mgmt).received.length ≤ 4) : Edits k o s (s.modMgmt f) :=
  Rest.edits { response := fun h => hresponse ▸ h, received := hreceived }

theorem State.endGeneralCall_edits (s : State) : Edits k o s s.endGeneralCall := by
  unfold State.endGeneralCall
  split
  · exact State.sealAll_edits s
  · exact .refl

/-- What the byte of a received command needs is granted by the START or STOP that ends its write. -/
theorem State.endOpenWrite_edits (s : State) (hk : k.configures = true) (hr : k.remaps = true) (hd : k.drops = s.endsDropping) :
    Edits k o s s.endOpenWrite := by
  unfold State.endOpenWrite
  split
  · rename_i hbus
    unfold State.endWrite
    split
    · exact .refl
    · rename_i code args hreceived
      refine State.runCommand_edits s { configures := fun _ => hk, remaps := fun _ => hr, drops := fun h => ?_ }
      have hcode : ∀ n : Nat, n < 256 → code.toNat = n → code = BitVec.ofNat 8 n := fun n hn h => by
        rw [← h, BitVec.ofNat_toNat, BitVec.setWidth_eq]
      rw [hd, State.endsDropping, hbus, hreceived]
      rcases h with h | h | h
      · rw [hcode 6 (by decide) h]; rfl
      · rw [hcode 7 (by decide) h]; rfl
      · rw [hcode 13 (by decide) h]; rfl
  · exact State.endGeneralCall_edits s
  · exact .refl
  · exact .refl
  · exact .refl

theorem execStartCondition_scoped (t : Time) (s : State) :
    Scoped (s.scope (.startCondition t)) (s.tick t) (execStartCondition t s) := by
  refine Edits.scoped ?_
  split
  · exact ((State.endOpenWrite_edits _ rfl rfl rfl).trans (State.modMgmt_edits _ _ rfl id)).trans (State.finish_edits _ rfl)
  · exact .refl

theorem execStopCondition_scoped (t : Time) (s : State) :
    Scoped (s.scope (.stopCondition t)) (s.tick t) (execStopCondition t s) := by
  refine Edits.scoped ?_
  split
  · exact ((State.endOpenWrite_edits _ rfl rfl rfl).trans (State.modMgmt_edits _ _ rfl id)).trans (State.finish_edits _ rfl)
  · exact .refl

theorem execMisplacedCondition_scoped (t : Time) (stop : Bool) (s : State) :
    Scoped (s.scope (.misplacedCondition t stop)) (s.tick t) (execMisplacedCondition t stop s) := by
  refine Edits.scoped ?_
  split
  · refine State.modMgmt_edits _ _ ?_ fun _ => ?_
    · cases stop <;> rfl
    · cases stop <;> exact Nat.zero_le 4
  · exact .refl

theorem MgmtPort.address_response (q : MgmtPort) (own : BitVec 7) (byte : Byte) :
    (q.address own byte).response = q.response ∧ (q.received.length ≤ 4 → (q.address own byte).received.length ≤ 4) := by
  unfold MgmtPort.address
  dsimp only
  split
  · exact ⟨rfl, id⟩
  · split
    · split
      · exact ⟨rfl, id⟩
      · exact ⟨rfl, fun _ => Nat.zero_le 4⟩
    · exact ⟨rfl, id⟩

theorem execAddressByte_scoped (t : Time) (byte : Byte) (s : State) :
    Scoped (s.scope (.addressByte t byte)) (s.tick t) (execAddressByte t byte s) := by
  refine Edits.scoped ?_
  split
  · exact State.modMgmt_edits _ _ (MgmtPort.address_response _ _ _).1 (MgmtPort.address_response _ _ _).2
  · exact .refl

theorem execDataByte_scoped (t : Time) (byte : Byte) (s : State) :
    Scoped (s.scope (.dataByte t byte)) (s.tick t) (execDataByte t byte s) := by
  refine Edits.scoped ?_
  split
  · refine State.modMgmt_edits _ _ ?_ ?_
    · unfold MgmtPort.takeByte
      split <;> rfl
    · unfold MgmtPort.takeByte
      split
      · rename_i hroom
        exact fun _ => Nat.le_trans (Nat.le_of_eq (List.length_append ..)) (Nat.succ_le_of_lt hroom.1)
      · exact id
  · exact .refl

theorem execResponseByte_scoped (t : Time) (ack : Bool) (s : State) :
    Scoped (s.scope (.responseByte t ack)) (s.tick t) (execResponseByte t ack s) := by
  refine Edits.scoped ?_
  split
  · refine State.modMgmt_edits _ _ ?_ ?_
    · split <;> rfl
    · split <;> exact id
  · exact .refl

theorem execGeneralCallByte_scoped (t : Time) (byte : Byte) (s : State) :
    Scoped (s.scope (.generalCallByte t byte)) (s.tick t) (execGeneralCallByte t byte s) := by
  refine Edits.scoped ?_
  split
  · refine State.modMgmt_edits _ _ ?_ ?_
    · unfold MgmtPort.takeGeneral
      split <;> rfl
    · unfold MgmtPort.takeGeneral
      split <;> exact id
  · exact .refl

theorem execGeneralCallFlush_scoped (t : Time) (s : State) :
    Scoped (s.scope (.generalCallFlush t)) (s.tick t) (execGeneralCallFlush t s) := by
  refine Edits.scoped ?_
  split
  · exact (State.sealAll_edits _).trans (State.finish_edits _ rfl)
  · exact .refl

/-- A byte that names no command runs none: it is refused. -/
theorem State.unknown_scoped (t : Time) (code : Byte) (args : List Byte) (s : State) :
    Scoped (s.scope (.unknownCommand t code args)) (s.tick t) (execUnknownCommand t code args s) := by
  refine Edits.scoped ?_
  split
  · rename_i hnone
    refine State.commandEvent_edits _ code args { configures := fun h => ?_, remaps := fun h => ?_, drops := fun h => ?_ } rfl
    · simp [argumentCount, h] at hnone
    · simp [argumentCount, h] at hnone
    · rcases h with h | h | h <;> simp [argumentCount, h] at hnone
  · exact .refl

/-- A whole write of one command, granted what its byte needs. -/
theorem State.command_scoped (t : Time) {code : Byte} (args : List Byte) (s : State) (hk : k.Grants code) (hp : k.programs = false) :
    Scoped k (s.tick t) (.next ((s.tick t).commandEvent code args)) := (State.commandEvent_edits _ code args hk hp).scoped

/-- A command that neither sets a parameter, nor restarts, nor drops bytes needs nothing. -/
theorem Scope.grants_of_ne {code : Byte} (h : code.toNat ≠ 3 ∧ code.toNat ≠ 6 ∧ code.toNat ≠ 7 ∧ code.toNat ≠ 13) : k.Grants code := by
  obtain ⟨h3, h6, h7, h13⟩ := h
  exact { configures := fun h => absurd h h3, remaps := fun h => absurd h h7
          drops := fun h => by rcases h with h | h | h <;> contradiction }

/-! ### Every command -/

theorem exec_scoped (c : Instr) (s : State) : ∃ t, Scoped (s.scope c) (s.tick t) (exec c s) := by
  have hplain : ∀ {k : Scope} (t : Time) (code : Byte) (args : List Byte),
      code.toNat ≠ 3 ∧ code.toNat ≠ 6 ∧ code.toNat ≠ 7 ∧ code.toNat ≠ 13 → k.programs = false →
      Scoped k (s.tick t) (.next ((s.tick t).commandEvent code args)) := fun t code args h hp =>
    State.command_scoped t args s (Scope.grants_of_ne h) hp
  cases c with
  | accessArrival t p wr addr size wd => exact ⟨t, execAccessArrival_scoped t p wr addr size wd s⟩
  | reqRemoved t p => exact ⟨t, execReqRemoved_scoped t p s⟩
  | rdyPulseEnd t p => exact ⟨t, execRdyPulseEnd_scoped t p s⟩
  | stallExpiry t p => exact ⟨t, execStallExpiry_scoped t p s⟩
  | fillCompletion t worn => exact ⟨t, execFillCompletion_scoped t worn s⟩
  | bypassCompletion t worn => exact ⟨t, execBypassCompletion_scoped t worn s⟩
  | settleExpiry t i => exact ⟨t, (State.due_seal_edits _ i _ rfl).scoped⟩
  | ageExpiry t i => exact ⟨t, (State.due_seal_edits _ i _ rfl).scoped⟩
  | flushRisingEdge t => exact ⟨t, execFlushRisingEdge_scoped t s⟩
  | pfwAssertionEdge t => exact ⟨t, execPfwAssertionEdge_scoped t s⟩
  | pfwDeassertionEdge t => exact ⟨t, execPfwDeassertionEdge_scoped t s⟩
  | pageLoad t => exact ⟨t, execPageLoad_scoped t s⟩
  | lapseEnd t => exact ⟨t, execLapseEnd_scoped t s⟩
  | pollRead t ended worn => exact ⟨t, execPollRead_scoped t ended worn s⟩
  | pollDeadlineExpiry t => exact ⟨t, execPollDeadlineExpiry_scoped t s⟩
  | verifyComplete t worn => exact ⟨t, execVerifyComplete_scoped t worn s⟩
  | retireBackfillComplete t worn => exact ⟨t, execRetireBackfillComplete_scoped t worn s⟩
  | holdBegin t => exact ⟨t, execHoldBegin_scoped t s⟩
  | holdEnd t => exact ⟨t, execHoldEnd_scoped t s⟩
  | mapLoadEnd t worn => exact ⟨t, execMapLoadEnd_scoped t worn s⟩
  | resetNFall t => exact ⟨t, execResetNFall_scoped t s⟩
  | resetNRise t acap addr flush pfw => exact ⟨t, execResetNRise_scoped t acap addr flush pfw s⟩
  | startCondition t => exact ⟨t, execStartCondition_scoped t s⟩
  | stopCondition t => exact ⟨t, execStopCondition_scoped t s⟩
  | misplacedCondition t stop => exact ⟨t, execMisplacedCondition_scoped t stop s⟩
  | addressByte t byte => exact ⟨t, execAddressByte_scoped t byte s⟩
  | dataByte t byte => exact ⟨t, execDataByte_scoped t byte s⟩
  | responseByte t ack => exact ⟨t, execResponseByte_scoped t ack s⟩
  | generalCallByte t byte => exact ⟨t, execGeneralCallByte_scoped t byte s⟩
  | generalCallFlush t => exact ⟨t, execGeneralCallFlush_scoped t s⟩
  | unknownCommand t code args => exact ⟨t, State.unknown_scoped t code args s⟩
  | status t args => exact ⟨t, hplain t 0x01 args (by decide) rfl⟩
  | configGet t args => exact ⟨t, hplain t 0x02 args (by decide) rfl⟩
  | configSet t args =>
    exact ⟨t, State.command_scoped (code := 0x03) t args s
      { configures := fun _ => rfl, remaps := fun h => absurd h (by decide), drops := fun h => absurd h (by decide) } rfl⟩
  | flush t args => exact ⟨t, hplain t 0x04 args (by decide) rfl⟩
  | quiesce t args => exact ⟨t, hplain t 0x05 args (by decide) rfl⟩
  | resume t args =>
    exact ⟨t, State.command_scoped (code := 0x06) t args s
      { configures := fun h => absurd h (by decide), remaps := fun h => absurd h (by decide), drops := fun _ => rfl } rfl⟩
  | restart t args =>
    exact ⟨t, State.command_scoped (code := 0x07) t args s
      { configures := fun h => absurd h (by decide), remaps := fun _ => rfl, drops := fun _ => rfl } rfl⟩
  | logRead t args => exact ⟨t, hplain t 0x08 args (by decide) rfl⟩
  | slotRead t args => exact ⟨t, hplain t 0x09 args (by decide) rfl⟩
  | mapRead t args => exact ⟨t, hplain t 0x0A args (by decide) rfl⟩
  | portError t args => exact ⟨t, hplain t 0x0B args (by decide) rfl⟩
  | retry t args => exact ⟨t, hplain t 0x0C args (by decide) rfl⟩
  | discard t args =>
    exact ⟨t, State.command_scoped (code := 0x0D) t args s
      { configures := fun h => absurd h (by decide), remaps := fun h => absurd h (by decide), drops := fun _ => rfl } rfl⟩
  | mapFormat t args => exact ⟨t, hplain t 0x0E args (by decide) rfl⟩
  | flushFallingEdge t => exact ⟨t, execFlushFallingEdge_scoped t s⟩

end Sys2Proof.Machine

/-! PROOF. What every command keeps, from the edits it is made of: completion, the fault log, the bounds, the array's bytes, the
table, the parameters and the straps. -/

namespace Sys2Proof.Machine

variable {k : Scope} {o s u : State}

/-- An edit is of slots and collections alone, or of the rest. -/
theorem Edit.frame (h : Edit k o s u) : OnlySlots s u ∨ Rest k s u := by
  cases h with
  | slot i f _ => exact .inl (s.modSlot_frame i f)
  | move i st _ _ _ => exact .inl (s.moveTo_frame i st)
  | free i _ => exact .inl (s.freeSlot_frame i)
  | allocate i page _ _ _ => exact .inl (s.allocate_frame i page)
  | clear _ => exact .inl rfl
  | rest u hr => exact .inr hr

/-- What every edit keeps, a chain of edits keeps. -/
theorem Edits.keeps {P : State → Prop} (hedit : ∀ m v, Edit k o m v → P m → P v) (h : Edits k o s u) (hs : P s) : P u := by
  induction h with
  | refl => exact hs
  | tail _ he ih => exact hedit _ _ he ih

/-- What reads neither slots nor collections is kept by a chain when the edits of the rest keep it. -/
theorem Edits.keeps_rest {P : State → Prop} (hslots : ∀ m v, OnlySlots m v → P m → P v) (hrest : ∀ m v, Rest k m v → P m → P v)
    (h : Edits k o s u) (hs : P s) : P u :=
  h.keeps (fun m v he => he.frame.elim (hslots m v) (hrest m v)) hs

/-- A step is the front command on the rest of the queue, or with none waiting the map loader's read. -/
theorem step_cases (h : step s = .next u) :
    (s.pending = [] ∧ u = s.readMap) ∨ ∃ c rest, s.pending = c :: rest ∧ exec c { s with pending := rest } = .next u := by
  unfold step at h
  split at h
  · exact .inl ⟨‹_›, (Host.Outcome.next.inj h).symm⟩
  · exact .inr ⟨_, _, ‹_›, h⟩

/-- A command's next state is reached by edits from the state at its moment. -/
theorem exec_chain {c : Instr} (h : exec c s = .next u) : ∃ t, Edits (s.scope c) (s.tick t) (s.tick t) u := by
  obtain ⟨t, v, hv, hedits⟩ := exec_scoped c s
  rw [h] at hv
  exact ⟨t, Host.Outcome.next.inj hv ▸ hedits⟩

/-- A step's next state is reached by edits from the state before, with another queue of commands and a moment not earlier. -/
theorem step_chain (h : step s = .next u) : ∃ k pending now, s.now ≤ now ∧
    Edits k { s with pending := pending, now := now } { s with pending := pending, now := now } u := by
  rcases step_cases h with ⟨-, rfl⟩ | ⟨c, rest, -, hexec⟩
  · rw [s.readMap_frame]
    let k : Scope := { brings := none, remaps := false, configures := false, straps := false, programs := false, drops := false, worn := [] }
    exact ⟨k, s.pending, s.now, Nat.le_refl _, Rest.edits {}⟩
  · obtain ⟨t, hedits⟩ := exec_chain hexec
    exact ⟨_, rest, max s.now t, Nat.le_max_left .., hedits⟩

/-- Settles O2: every command is a chain of edits from the state at its moment, and no edit touches the queue or the clock. -/
theorem everyCommandCompletes : Obligations.EveryCommandCompletes := by
  intro c s
  obtain ⟨t, u, hu, hedits⟩ := exec_scoped c s
  have hkept : u.pending = s.pending ∧ u.now = max s.now t := by
    refine hedits.keeps_rest (P := fun m => m.pending = s.pending ∧ m.now = max s.now t) (fun m v hv hm => ?_)
      (fun m v hv ⟨hpending, hnow⟩ => ⟨hv.pending.trans hpending, hv.now.trans hnow⟩) ⟨rfl, rfl⟩
    rw [hv]
    exact hm
  exact ⟨u, hu, hkept.1, hkept.2 ▸ Nat.le_max_left ..⟩

/-- Settles O7: appends and LOG_READ keep the log in order, and nothing else touches it but pin reset. -/
theorem faultLogStaysInOrder : Obligations.FaultLogStaysInOrder := by
  intro s u hlog hstep
  obtain ⟨k, pending, now, -, hedits⟩ := step_chain hstep
  refine hedits.keeps_rest (P := fun m => m.log.ok) (fun m v hv hm => ?_) (fun m v hv => hv.log) hlog
  rw [hv]
  exact hm

/-! ### Bounds and deadlines -/

/-- A property of the fields beside slots and collections survives a change of those. -/
theorem OnlySlots.keeps {α : Type} {f : State → α} (h : OnlySlots s u)
    (hf : ∀ m : State, f { m with slots := u.slots, freeList := u.freeList, recency := u.recency, ageList := u.ageList,
                                  pinned := u.pinned, queue := u.queue } = f m) : f u = f s := by
  rw [h]
  exact hf s

/-- Outside RUNNING every edit leaves the slots without deadlines. -/
theorem Edit.deadlinesOk (he : Edit k o s u) (h : s.deadlinesOk) : u.deadlinesOk := by
  have hstore : OnlySlots s u → u.store = s.store := fun hv => hv.keeps (f := State.store) fun _ => rfl
  intro hnot i
  cases he with
  | slot j f hf =>
    have hold := h hnot
    rw [State.slot_modSlot]
    split
    · exact hf.deadlines hnot (hold j).1 (hold j).2
    · exact hold i
  | move j st _ _ _ =>
    have hold := h (by rwa [hstore (s.moveTo_frame j st)] at hnot)
    by_cases hj : j = i
    · subst hj
      simp [hold j]
    · rw [s.slot_moveTo_ne st hj]
      exact hold i
  | free j _ =>
    have hold := h (by rwa [hstore (s.freeSlot_frame j)] at hnot)
    by_cases hj : j = i
    · subst hj
      rw [s.slot_freeSlot_same]
      exact ⟨rfl, rfl⟩
    · rw [State.freeSlot, State.slot_modSlot_ne _ _ hj, s.slot_moveTo_ne _ hj]
      exact hold i
  | allocate j page _ _ _ =>
    have hold := h (by rwa [hstore (s.allocate_frame j page)] at hnot)
    by_cases hj : j = i
    · subst hj
      rw [s.slot_allocate_same]
      exact ⟨rfl, rfl⟩
    · rw [State.allocate, State.slot_modSlot_ne _ _ hj, s.slot_moveTo_ne _ hj]
      exact hold i
  | clear _ =>
    have hslot : s.clearSlots.slot i = Slot.reset := by simp [State.slot, State.clearSlots]
    rw [hslot]
    exact ⟨rfl, rfl⟩
  | rest u hr =>
    have hslot : u.slot i = s.slot i := by
      unfold State.slot
      rw [hr.slots]
    rw [hslot]
    by_cases hrun : s.store.state = .running
    · exact hr.deadlines hrun hnot i
    · exact h hrun i

/-- Settles O9: each bound is kept by every edit. -/
theorem boundsAndTimersKept : Obligations.BoundsAndTimersKept := by
  intro s u hstep
  obtain ⟨k, pending, now, -, hedits⟩ := step_chain hstep
  have hkeeps : ∀ {α : Type} (f : State → α) (Q : α → Prop) (_ : ∀ m v, OnlySlots m v → f v = f m)
      (_ : ∀ m v, Rest k m v → Q (f m) → Q (f v)), Q (f { s with pending := pending, now := now }) → Q (f u) :=
    fun f Q hslots hrest => hedits.keeps_rest (P := fun m => Q (f m)) (fun m v hv hm => (hslots m v hv).symm ▸ hm) hrest
  exact ⟨hkeeps State.params (fun q => q.ok) (fun m v hv => hv.keeps fun _ => rfl) fun m v hv => hv.paramsOk,
    hkeeps State.fairness (· ≤ 4) (fun m v hv => hv.keeps fun _ => rfl) fun m v hv => hv.fairness,
    hkeeps State.store (fun c => c.fieldsOk) (fun m v hv => hv.keeps fun _ => rfl) fun m v hv => hv.store,
    fun h => hedits.keeps (P := fun m => m.deadlinesOk) (fun m v he => he.deadlinesOk) h,
    hkeeps State.mgmt (fun q => q.response.length ≤ 32) (fun m v hv => hv.keeps fun _ => rfl) fun m v hv => hv.response,
    hkeeps State.mgmt (fun q => q.received.length ≤ 4) (fun m v hv => hv.keeps fun _ => rfl) fun m v hv => hv.received,
    hkeeps State.chip (fun c => Memory.wf c.cells = true) (fun m v hv => hv.keeps fun _ => rfl) fun m v hv => hv.cells⟩

/-! ### The array's bytes, the table, the parameters and the straps -/

/-- Settles O10: an edit changes only the bytes told as worn and, of a command that ends programming, the latched ones. -/
theorem arrayBytesChangeOnlyByProgramming : Obligations.ArrayBytesChangeOnlyByProgramming := by
  intro c s u a hexec hworn hlatch
  obtain ⟨t, hedits⟩ := exec_chain hexec
  have hkept : Memory.read u.chip.cells a = Memory.read s.chip.cells a ∧
      ((s.scope c).programs = true → ∀ e ∈ u.chip.latch, arrayAddress u.chip.latchPage e.1 ≠ a) := by
    refine hedits.keeps_rest (P := fun m => Memory.read m.chip.cells a = Memory.read s.chip.cells a ∧
      ((s.scope c).programs = true → ∀ e ∈ m.chip.latch, arrayAddress m.chip.latchPage e.1 ≠ a)) (fun m v hv hm => ?_)
      (fun m v hv ⟨hread, hoff⟩ => ?_) ⟨rfl, hlatch⟩
    · rw [hv]
      exact hm
    · obtain ⟨hread', hoff'⟩ := hv.bytes a hworn hoff
      exact ⟨hread'.trans hread, hoff'⟩
  exact hkept.1

/-- Settles O11: no edit of a command that is not named for it touches the table, a parameter or a strap. -/
theorem tableParametersAndStrapsChangeOnlyWhereNamed : Obligations.TableParametersAndStrapsChangeOnlyWhereNamed := by
  intro c s u hexec
  obtain ⟨t, hedits⟩ := exec_chain hexec
  refine ⟨fun hno => ?_, fun hno => ?_, fun hno => ?_⟩
  · refine hedits.keeps_rest (P := fun m => m.remap = s.remap) (fun m v hv hm => ?_) (fun m v hv hm => ?_) rfl
    · rw [hv]
      exact hm
    · exact (hv.remap.resolve_right (by simp [State.scope, hno])).trans hm
  · refine hedits.keeps_rest (P := fun m => m.params = s.params) (fun m v hv hm => ?_) (fun m v hv hm => ?_) rfl
    · rw [hv]
      exact hm
    · exact (hv.params.resolve_right (by simp [State.scope, hno])).trans hm
  · refine hedits.keeps_rest (P := fun m => m.capacity = s.capacity ∧ m.addrStrap = s.addrStrap) (fun m v hv hm => ?_)
      (fun m v hv ⟨hcap, haddr⟩ => ?_) ⟨rfl, rfl⟩
    · rw [hv]
      exact hm
    · obtain ⟨hcap', haddr'⟩ := hv.straps.resolve_right (by simp [State.scope, hno])
      exact ⟨hcap'.trans hcap, haddr'.trans haddr⟩

end Sys2Proof.Machine

/-! PROOF. The collections: order under insertion, and what each change of a slot's state leaves of membership and order (R4, R5, R7,
R9). -/

namespace Sys2Proof.Machine

variable {k : Scope} {o s u : State}

/-! ### Insertion -/

/-- Slot `i` stands before slot `j` in the age list: dirty earlier, or dirty since the same moment with the lower index (R7). -/
def State.ageBefore (s : State) (i j : SlotIx) : Prop :=
  (s.slot i).dirtySince.getD 0 < (s.slot j).dirtySince.getD 0 ∨
    (s.slot i).dirtySince.getD 0 = (s.slot j).dirtySince.getD 0 ∧ i < j

theorem State.olderThan_iff (s : State) (i j : SlotIx) : s.olderThan i j = true ↔ s.ageBefore i j := by
  simp [State.olderThan, State.ageBefore]

theorem State.ageBefore_trans {s : State} {i j l : SlotIx} (h : s.ageBefore i j) (h' : s.ageBefore j l) : s.ageBefore i l := by
  rcases h with h | ⟨h, hi⟩ <;> rcases h' with h' | ⟨h', hj⟩
  · exact .inl (Nat.lt_trans h h')
  · exact .inl (h' ▸ h)
  · exact .inl (h ▸ h')
  · exact .inr ⟨h.trans h', Fin.lt_trans hi hj⟩

/-- Of two slots one stands before the other. -/
theorem State.ageBefore_or {s : State} {i j : SlotIx} (h : i ≠ j) : s.ageBefore i j ∨ s.ageBefore j i := by
  rcases Nat.lt_trichotomy ((s.slot i).dirtySince.getD 0) ((s.slot j).dirtySince.getD 0) with hlt | heq | hgt
  · exact .inl (.inl hlt)
  · exact (Fin.lt_or_lt_of_ne h).imp (fun hij => .inr ⟨heq, hij⟩) fun hji => .inr ⟨heq.symm, hji⟩
  · exact .inr (.inl hgt)

theorem State.insertByAge_perm (s : State) (i : SlotIx) (l : List SlotIx) : (s.insertByAge i l).Perm (i :: l) := by
  induction l with
  | nil => exact .refl _
  | cons j rest ih =>
    unfold State.insertByAge
    split
    · exact .refl _
    · exact (ih.cons j).trans (.swap i j rest)

theorem insertAscending_perm (i : SlotIx) (l : List SlotIx) : (insertAscending i l).Perm (i :: l) := by
  induction l with
  | nil => exact .refl _
  | cons j rest ih =>
    unfold insertAscending
    split
    · exact .refl _
    · exact (ih.cons j).trans (.swap i j rest)

theorem State.insertByAge_ordered {s : State} {i : SlotIx} {l : List SlotIx} (hi : i ∉ l) (h : l.Pairwise s.ageBefore) :
    (s.insertByAge i l).Pairwise s.ageBefore := by
  induction l with
  | nil => exact List.pairwise_singleton _ i
  | cons j rest ih =>
    obtain ⟨hj, hrest⟩ := List.pairwise_cons.1 h
    obtain ⟨hne, hi'⟩ := not_or.1 (mt List.mem_cons.2 hi)
    unfold State.insertByAge
    split
    · have hij := (s.olderThan_iff i j).1 ‹_›
      refine List.pairwise_cons.2 ⟨fun l hl => ?_, h⟩
      rcases List.mem_cons.1 hl with rfl | hl
      · exact hij
      · exact State.ageBefore_trans hij (hj l hl)
    · have hji : s.ageBefore j i := (State.ageBefore_or hne).resolve_left fun h => ‹¬_› ((s.olderThan_iff i j).2 h)
      refine List.pairwise_cons.2 ⟨fun l hl => ?_, ih hi' hrest⟩
      rcases State.mem_insertByAge.1 hl with rfl | hl
      · exact hji
      · exact hj l hl

theorem insertAscending_ascending {i : SlotIx} {l : List SlotIx} (hi : i ∉ l) (h : l.Pairwise (· < ·)) :
    (insertAscending i l).Pairwise (· < ·) := by
  induction l with
  | nil => exact List.pairwise_singleton _ i
  | cons j rest ih =>
    obtain ⟨hj, hrest⟩ := List.pairwise_cons.1 h
    obtain ⟨hne, hi'⟩ := not_or.1 (mt List.mem_cons.2 hi)
    unfold insertAscending
    split
    · refine List.pairwise_cons.2 ⟨fun l hl => ?_, h⟩
      rcases List.mem_cons.1 hl with rfl | hl
      · exact ‹i < l›
      · exact Fin.lt_trans ‹i < j› (hj l hl)
    · have hji : j < i := (Fin.lt_or_lt_of_ne hne).resolve_left ‹_›
      refine List.pairwise_cons.2 ⟨fun l hl => ?_, ih hi' hrest⟩
      rcases mem_insertAscending.1 hl with rfl | hl
      · exact hji
      · exact hj l hl

/-- Settles O21: an insertion puts the slot behind what stands before it and ahead of the rest. -/
theorem ageListInsertionKeepsOrder : Obligations.AgeListInsertionKeepsOrder := by
  intro s i l hi
  exact ⟨fun h => ⟨State.insertByAge_ordered hi h, s.insertByAge_perm i l⟩,
    fun h => ⟨insertAscending_ascending hi h, insertAscending_perm i l⟩⟩

/-! ### The collection of a state -/

/-- The collection of the slots of a state; COMMITTING has none. -/
def State.collection (s : State) : SlotState → List SlotIx
  | .free => s.freeList
  | .clean => s.recency
  | .dirty => s.ageList
  | .sealed => s.queue
  | .committing => []
  | .pinned => s.pinned

theorem State.collectionsOk_iff (s : State) :
    s.collectionsOk ↔ ∀ st, st ≠ .committing → s.holds (s.collection st) st := by
  constructor
  · rintro ⟨hfree, hclean, hdirty, hsealed, hpinned⟩ st hst
    cases st with
    | free => exact hfree
    | clean => exact hclean
    | dirty => exact hdirty
    | sealed => exact hsealed
    | committing => exact absurd rfl hst
    | pinned => exact hpinned
  · exact fun h => ⟨h .free nofun, h .clean nofun, h .dirty nofun, h .sealed nofun, h .pinned nofun⟩

/-- The collection of the old state loses the slot. -/
theorem State.collection_leave (s : State) (i : SlotIx) (c : SlotState) :
    (s.leave i).collection c = if (s.slot i).state = c then (s.collection c).erase i else s.collection c := by
  unfold State.leave
  cases (s.slot i).state <;> cases c <;> rfl

/-- The collection that the slot leaves, and then the collection that it joins. -/
theorem State.collection_join (s : State) (i : SlotIx) (st c : SlotState) (hc : c ≠ .committing) :
    (s.join i st).collection c = s.collection c ∧ st ≠ c ∨ ((s.join i st).collection c).Perm (i :: s.collection c) ∧ st = c := by
  by_cases h : st = c
  · subst h
    refine .inr ⟨?_, rfl⟩
    cases st with
    | free => exact insertAscending_perm i _
    | clean => exact List.perm_append_singleton i _
    | dirty => exact s.insertByAge_perm i _
    | sealed => exact List.perm_append_singleton i _
    | committing => exact absurd rfl hc
    | pinned => exact insertAscending_perm i _
  · refine .inl ⟨?_, h⟩
    cases st <;> cases c <;> first | rfl | exact absurd rfl h

/-- The list that a slot is to join does not hold it: it has left the collection of its own state, and stands in no other. -/
theorem State.not_mem_left (h : s.collectionsOk) (i : SlotIx) {c : SlotState} (hc : c ≠ .committing) :
    i ∉ (s.leave i).collection c := by
  obtain ⟨hnodup, hmem⟩ := (s.collectionsOk_iff).1 h c hc
  rw [s.collection_leave]
  split
  · exact fun hi => absurd hi (by simpa using hnodup.not_mem_erase)
  · exact fun hi => ‹¬_› ((hmem i).1 hi)

/-- A change of state keeps every collection equal to the slots of its state. -/
theorem State.moveTo_collectionsOk (h : s.collectionsOk) (i : SlotIx) (st : SlotState) : (s.moveTo i st).collectionsOk := by
  refine (State.collectionsOk_iff _).2 fun c hc => ?_
  obtain ⟨hnodup, hmem⟩ := (s.collectionsOk_iff).1 h c hc
  have hleft : ((s.leave i).collection c).Nodup := by
    rw [s.collection_leave]
    split
    · exact hnodup.erase i
    · exact hnodup
  have hnot := State.not_mem_left h i hc
  have hin : ∀ j, j ∈ (s.leave i).collection c ↔ j ≠ i ∧ (s.slot j).state = c := fun j => by
    constructor
    · intro hj
      refine ⟨fun e => hnot (e ▸ hj), (hmem j).1 ?_⟩
      rw [s.collection_leave] at hj
      split at hj
      · exact List.mem_of_mem_erase hj
      · exact hj
    · rintro ⟨hne, hj⟩
      rw [s.collection_leave]
      split
      · exact (List.mem_erase_of_ne hne).2 ((hmem j).2 hj)
      · exact (hmem j).2 hj
  have hstate : ∀ j, ((s.moveTo i st).slot j).state = if j = i then st else (s.slot j).state := fun j => by
    split
    · subst j
      simp
    · rw [s.slot_moveTo_ne st (Ne.symm ‹_›)]
  obtain ⟨hsame, hne⟩ | ⟨hperm, rfl⟩ := State.collection_join ((s.leave i).modSlot i (·.become st)) i st c hc
  · change ((s.moveTo i st).collection c = (s.leave i).collection c) at hsame
    rw [State.holds, hsame]
    refine ⟨hleft, fun j => (hin j).trans ?_⟩
    rw [hstate]
    split <;> simp_all
  · change ((s.moveTo i st).collection st).Perm (i :: (s.leave i).collection st) at hperm
    refine ⟨hperm.nodup_iff.2 (List.nodup_cons.2 ⟨hnot, hleft⟩), fun j => ?_⟩
    rw [hperm.mem_iff, List.mem_cons, hin, hstate]
    split <;> simp_all

/-- What changes no slot's state and no collection keeps them equal. -/
theorem State.collectionsOk_congr (h : s.collectionsOk) (hstate : ∀ i, (u.slot i).state = (s.slot i).state)
    (hlists : ∀ c, u.collection c = s.collection c) : u.collectionsOk := by
  refine (State.collectionsOk_iff _).2 fun c hc => ?_
  obtain ⟨hnodup, hmem⟩ := (s.collectionsOk_iff).1 h c hc
  rw [State.holds, hlists c]
  exact ⟨hnodup, fun i => by rw [hstate]; exact hmem i⟩

theorem State.collection_modSlot (s : State) (i : SlotIx) (f : Slot → Slot) (c : SlotState) :
    (s.modSlot i f).collection c = s.collection c := by cases c <;> rfl

theorem State.modSlot_collectionsOk (h : s.collectionsOk) (i : SlotIx) {f : Slot → Slot}
    (hf : (f (s.slot i)).state = (s.slot i).state) : (s.modSlot i f).collectionsOk := by
  refine State.collectionsOk_congr h (fun j => ?_) (s.collection_modSlot i f)
  rw [State.slot_modSlot]
  split
  · rw [hf, ‹i = j›]
  · rfl

theorem State.allocate_collectionsOk (h : s.collectionsOk) (i : SlotIx) (page : Nat) : (s.allocate i page).collectionsOk :=
  State.modSlot_collectionsOk (State.moveTo_collectionsOk h i .clean) i rfl

theorem State.freeSlot_collectionsOk (h : s.collectionsOk) (i : SlotIx) : (s.freeSlot i).collectionsOk :=
  State.modSlot_collectionsOk (State.moveTo_collectionsOk h i .free) i rfl

theorem State.slot_clearSlots (s : State) (i : SlotIx) : s.clearSlots.slot i = Slot.reset := by
  simp [State.slot, State.clearSlots]

theorem State.clearSlots_collectionsOk (s : State) : s.clearSlots.collectionsOk := by
  have hstate : ∀ i, (s.clearSlots.slot i).state = .free := fun i => by rw [s.slot_clearSlots]; rfl
  have hnone : ∀ st, st ≠ SlotState.free → s.clearSlots.holds [] st := fun st hst => by
    refine ⟨List.nodup_nil, fun i => ⟨nofun, fun h => ?_⟩⟩
    rw [hstate] at h
    exact absurd h.symm hst
  refine ⟨⟨?_, fun i => ⟨fun _ => hstate i, fun _ => mem_allSlots i⟩⟩, hnone _ nofun, hnone _ nofun, hnone _ nofun, hnone _ nofun⟩
  exact List.nodup_finRange 32

theorem Rest.slot (h : Rest k s u) (i : SlotIx) : u.slot i = s.slot i := by
  unfold State.slot
  rw [h.slots]

theorem Rest.collection (h : Rest k s u) (c : SlotState) : u.collection c = s.collection c := by
  cases c with
  | free => exact h.freeList
  | clean => exact h.recency
  | dirty => exact h.ageList
  | sealed => exact h.queue
  | committing => rfl
  | pinned => exact h.pinned

theorem Edit.collectionsOk (he : Edit k o s u) (h : s.collectionsOk) : u.collectionsOk := by
  cases he with
  | slot i f hf => exact State.modSlot_collectionsOk h i hf.state
  | move i st _ _ _ => exact State.moveTo_collectionsOk h i st
  | free i _ => exact State.freeSlot_collectionsOk h i
  | allocate i page _ _ _ => exact State.allocate_collectionsOk h i page
  | clear _ => exact s.clearSlots_collectionsOk
  | rest u hr => exact State.collectionsOk_congr h (fun i => by rw [hr.slot]) hr.collection

/-! ### Lists in ascending slot index -/

/-- The lists held in ascending slot index stay so at a change of state. -/
theorem State.moveTo_ascending (h : s.collectionsOk) (i : SlotIx) (st : SlotState) {c : SlotState} (hc : c = .free ∨ c = .pinned)
    (hs : (s.collection c).Pairwise (· < ·)) : ((s.moveTo i st).collection c).Pairwise (· < ·) := by
  have hleft : ((s.leave i).collection c).Pairwise (· < ·) := by
    rw [s.collection_leave]
    split
    · exact hs.sublist List.erase_sublist
    · exact hs
  have hnot : i ∉ (s.leave i).collection c := State.not_mem_left h i (by rcases hc with rfl | rfl <;> nofun)
  have hjoin : (s.moveTo i st).collection c = (s.leave i).collection c ∨
      (s.moveTo i st).collection c = insertAscending i ((s.leave i).collection c) := by
    rcases hc with rfl | rfl <;> cases st <;> first | exact .inl rfl | exact .inr rfl
  rcases hjoin with hj | hj
  · rw [hj]
    exact hleft
  · rw [hj]
    exact insertAscending_ascending hnot hleft

theorem Edit.ascending (he : Edit k o s u) (h : s.collectionsOk) {c : SlotState} (hc : c = .free ∨ c = .pinned)
    (hs : (s.collection c).Pairwise (· < ·)) : (u.collection c).Pairwise (· < ·) := by
  cases he with
  | slot i f _ => rwa [s.collection_modSlot]
  | move i st _ _ _ => exact State.moveTo_ascending h i st hc hs
  | free i _ =>
    rw [State.freeSlot, State.collection_modSlot]
    exact State.moveTo_ascending h i _ hc hs
  | allocate i page _ _ _ =>
    rw [State.allocate, State.collection_modSlot]
    exact State.moveTo_ascending h i _ hc hs
  | clear _ =>
    rcases hc with rfl | rfl
    · exact List.pairwise_lt_finRange 32
    · exact List.Pairwise.nil
  | rest u hr => rwa [hr.collection]

/-! ### The age list -/

/-- A change of state leaves every slot's dirty-since time. -/
theorem State.moveTo_dirtySince (s : State) (i j : SlotIx) (st : SlotState) :
    ((s.moveTo i st).slot j).dirtySince = (s.slot j).dirtySince := by
  by_cases h : i = j
  · subst h
    simp
  · rw [s.slot_moveTo_ne st h]

/-- The order of the age list depends on the dirty-since times of its slots alone. -/
theorem State.ageOrdered_congr {l : List SlotIx} (h : ∀ i ∈ l, (u.slot i).dirtySince = (s.slot i).dirtySince)
    (hs : l.Pairwise s.ageBefore) : l.Pairwise u.ageBefore :=
  hs.imp_of_mem fun hi hj hij => by
    unfold State.ageBefore
    rw [h _ hi, h _ hj]
    exact hij

theorem State.moveTo_ageOrdered (h : s.collectionsOk) (i : SlotIx) (st : SlotState) (hs : s.ageOrdered) :
    (s.moveTo i st).ageOrdered := by
  have hleft : ((s.leave i).collection .dirty).Pairwise s.ageBefore := by
    rw [s.collection_leave]
    split
    · exact List.Pairwise.sublist List.erase_sublist hs
    · exact hs
  have hsince : ∀ m : State, (∀ j, (m.slot j).dirtySince = (s.slot j).dirtySince) →
      ((s.leave i).collection .dirty).Pairwise m.ageBefore := fun m hm => State.ageOrdered_congr (fun j _ => hm j) hleft
  have hmid : ∀ j, (((s.leave i).modSlot i (·.become st)).slot j).dirtySince = (s.slot j).dirtySince := fun j => by
    have := s.moveTo_dirtySince i j st
    cases st <;> exact this
  have hjoin : (s.moveTo i st).ageList = (s.leave i).collection .dirty ∨
      (s.moveTo i st).ageList = ((s.leave i).modSlot i (·.become st)).insertByAge i ((s.leave i).collection .dirty) := by
    cases st <;> first | exact .inl rfl | exact .inr rfl
  rcases hjoin with hj | hj
  · show (s.moveTo i st).ageList.Pairwise (s.moveTo i st).ageBefore
    rw [hj]
    exact hsince _ fun j => s.moveTo_dirtySince i j st
  · show (s.moveTo i st).ageList.Pairwise (s.moveTo i st).ageBefore
    rw [hj]
    refine State.ageOrdered_congr (s := (s.leave i).modSlot i (·.become st)) (fun j _ => ?_)
      (State.insertByAge_ordered (State.not_mem_left h i nofun) (hsince _ hmid))
    rw [hmid, s.moveTo_dirtySince]

/-- Every DIRTY slot holds a dirty byte, or is dirty since this moment. -/
def State.sinceOk (s : State) : Prop :=
  ∀ i : SlotIx, (s.slot i).state = .dirty → (s.slot i).dirty ≠ 0 ∨ (s.slot i).dirtySince = some s.now

/-- An edit leaves the age list in order: a DIRTY slot's dirty-since time changes only from this moment to this moment. The slot of
the commit in flight at the event's beginning was not DIRTY there. -/
theorem Edit.ageOrdered (he : Edit k o s u) (ho : o.commitOk) (h : s.collectionsOk) (hsince : s.sinceOk) (hs : s.ageOrdered) :
    u.ageOrdered ∧ u.sinceOk := by
  have hnow : OnlySlots s u → u.now = s.now := fun hv => hv.keeps (f := State.now) fun _ => rfl
  have hmove : ∀ (i : SlotIx) (st : SlotState) (f : Slot → Slot), st ≠ .dirty → (∀ x : Slot, (f x).state = x.state) →
      ((s.moveTo i st).modSlot i f).ageOrdered ∧ ((s.moveTo i st).modSlot i f).sinceOk := fun i st f hst hf => by
    have hstate : ((s.moveTo i st).slot i).state = st := by simp
    refine ⟨State.ageOrdered_congr (fun j hj => ?_) (State.moveTo_ageOrdered h i st hs), fun j hj => ?_⟩
    · rw [State.slot_modSlot_ne]
      rintro rfl
      obtain ⟨-, -, ⟨-, hmem⟩, -⟩ := State.moveTo_collectionsOk h i st
      exact hst (hstate ▸ (hmem i).1 hj)
    · by_cases hij : i = j
      · subst hij
        rw [State.slot_modSlot_same, hf, hstate] at hj
        exact absurd hj hst
      · rw [State.slot_modSlot_ne _ _ hij, s.slot_moveTo_ne st hij] at hj ⊢
        rw [((s.moveTo_frame i st).trans (State.modSlot_frame _ i f)).keeps (f := State.now) fun _ => rfl]
        exact hsince j hj
  cases he with
  | slot i f hf =>
    have hcase : (s.slot i).state = .dirty →
        (f (s.slot i)).dirtySince = (s.slot i).dirtySince ∧
          ((f (s.slot i)).dirty ≠ 0 ∨ (f (s.slot i)).dirtySince = some s.now) := fun hd => by
      rcases hf.since hd with ⟨hsame, hne⟩ | ⟨hzero, hset⟩ | ⟨hcommit, hodirty⟩
      · exact ⟨hsame, (hsince i hd).imp hne fun h => hsame.trans h⟩
      · exact ⟨hset.trans ((hsince i hd).resolve_left (Classical.not_not.2 hzero)).symm, .inr hset⟩
      · rw [(ho i).2 hcommit] at hodirty
        cases hodirty
    refine ⟨State.ageOrdered_congr (fun j hj => ?_) hs, fun j hj => ?_⟩
    · rw [State.slot_modSlot]
      split
      · subst j
        obtain ⟨-, -, ⟨-, hmem⟩, -⟩ := h
        exact (hcase ((hmem i).1 hj)).1
      · rfl
    · rw [State.slot_modSlot] at hj ⊢
      split at hj
      · subst j
        rw [if_pos rfl]
        exact (hcase (hf.state ▸ hj)).2
      · rw [if_neg ‹_›]
        exact hsince j hj
  | move i st _ _ hdirty =>
    refine ⟨State.moveTo_ageOrdered h i st hs, fun j hj => ?_⟩
    rw [hnow (s.moveTo_frame i st)]
    by_cases hij : i = j
    · subst hij
      rw [s.slot_moveTo_same] at hj ⊢
      simpa using hdirty (by simpa using hj)
    · rw [s.slot_moveTo_ne st hij] at hj ⊢
      exact hsince j hj
  | free i _ => exact hmove i .free _ nofun fun _ => rfl
  | allocate i page _ _ _ => exact hmove i .clean _ nofun fun _ => rfl
  | clear _ =>
    refine ⟨List.Pairwise.nil, fun i hi => ?_⟩
    rw [s.slot_clearSlots] at hi
    cases hi
  | rest u hr =>
    refine ⟨?_, fun i hi => ?_⟩
    · show u.ageList.Pairwise u.ageBefore
      rw [hr.ageList]
      exact State.ageOrdered_congr (fun i _ => by rw [hr.slot]) hs
    · rw [hr.slot, hr.now] at *
      exact hsince i hi

/-- Settles O5: every edit keeps the collections and the ascending lists; the age list also needs that a DIRTY slot without a dirty
byte is dirty since this moment, which holds at the event's beginning because a sound state has no such slot. -/
theorem collectionsFollowSlotStates : Obligations.CollectionsFollowSlotStates := by
  intro s u hcoll hfree hstep
  obtain ⟨k, pending, now, -, hedits⟩ := step_chain hstep
  have hascending : ∀ c, c = .free ∨ c = .pinned → (s.collection c).Pairwise (· < ·) → (u.collection c).Pairwise (· < ·) := by
    intro c hc hs
    have hs' : (({ s with pending := pending, now := now } : State).collection c).Pairwise (· < ·) := by
      rcases hc with rfl | rfl <;> exact hs
    exact (hedits.keeps (P := fun m => m.collectionsOk ∧ (m.collection c).Pairwise (· < ·))
      (fun m v he hm => ⟨he.collectionsOk hm.1, he.ascending hm.1 hc hm.2⟩) ⟨hcoll, hs'⟩).2
  refine ⟨hedits.keeps (fun m v he => he.collectionsOk) hcoll, hascending .free (.inl rfl) hfree, hascending .pinned (.inr rfl), ?_⟩
  rintro ⟨⟨-, -, hslots⟩, -, ⟨hcommit, -⟩, -⟩ hage
  have hsince : ({ s with pending := pending, now := now } : State).sinceOk := fun i hi => by
    obtain ⟨⟨-, -, -, hdirty⟩, -⟩ := hslots i
    exact .inl (hdirty (.inl hi))
  generalize ho : ({ s with pending := pending, now := now } : State) = o at hedits hsince
  replace hcoll : o.collectionsOk := ho ▸ hcoll
  replace hage : o.ageOrdered := ho ▸ hage
  replace hcommit : o.commitOk := ho ▸ hcommit
  have hkept : u.collectionsOk ∧ u.ageOrdered ∧ u.sinceOk := hedits.keeps (P := fun m => m.collectionsOk ∧ m.ageOrdered ∧ m.sinceOk)
    (fun m v he ⟨hc, ha, hd⟩ => ⟨he.collectionsOk hc, he.ageOrdered hcommit hc hd ha⟩) ⟨hcoll, hage, hsince⟩
  exact hkept.2.1

/-! ### Pages -/

theorem Edit.pagesOk (he : Edit k o s u) (h : s.pagesOk) : u.pagesOk := by
  obtain ⟨hfree, huniq⟩ := h
  have hsame : (∀ i, (u.slot i).page = (s.slot i).page) → (∀ i, (u.slot i).state = .free → (s.slot i).state = .free) →
      u.pagesOk := fun hpage hstate =>
    ⟨fun i hi => by rw [hpage]; exact hfree i (hstate i hi), fun i j hi hij => by
      rw [hpage] at hi hij
      rw [hpage] at hij
      exact huniq i j hi hij⟩
  cases he with
  | slot i f hf =>
    have hslot : ∀ j, ((s.modSlot i f).slot j).page = (s.slot j).page ∧ ((s.modSlot i f).slot j).state = (s.slot j).state := by
      intro j
      rw [State.slot_modSlot]
      split
      · subst j
        exact ⟨hf.page, hf.state⟩
      · exact ⟨rfl, rfl⟩
    exact hsame (fun j => (hslot j).1) fun j hj => (hslot j).2 ▸ hj
  | move i st hst _ _ =>
    refine hsame (fun j => ?_) fun j hj => ?_
    · by_cases hij : i = j
      · subst hij
        simp
      · rw [s.slot_moveTo_ne st hij]
    · by_cases hij : i = j
      · subst hij
        exact absurd (by simpa using hj) hst
      · rwa [s.slot_moveTo_ne st hij] at hj
  | free i _ =>
    have hne : ∀ j, i ≠ j → (s.freeSlot i).slot j = s.slot j := fun j hij => by
      rw [State.freeSlot, State.slot_modSlot_ne _ _ hij, s.slot_moveTo_ne _ hij]
    have hpage : ((s.freeSlot i).slot i).page = none := by rw [s.slot_freeSlot_same]; rfl
    refine ⟨fun j hj => ?_, fun j l hj hjl => ?_⟩
    · by_cases hij : i = j
      · exact hij ▸ hpage
      · rw [hne j hij] at hj ⊢
        exact hfree j hj
    · have hij : i ≠ j := fun e => hj (e ▸ hpage)
      have hil : i ≠ l := fun e => hj (hjl.trans (e ▸ hpage))
      rw [hne j hij] at hj hjl
      rw [hne l hil] at hjl
      exact huniq j l hj hjl
  | allocate i page _ hpage _ =>
    have hne : ∀ j, i ≠ j → (s.allocate i page).slot j = s.slot j := fun j hij => by
      rw [State.allocate, State.slot_modSlot_ne _ _ hij, s.slot_moveTo_ne _ hij]
    have hnew : ((s.allocate i page).slot i).page = some page := by rw [s.slot_allocate_same]
    have hother : ∀ j, i ≠ j → (s.slot j).page ≠ some page := fun j hij hj =>
      hpage j ⟨fun hf => by simp [hfree j hf] at hj, hj⟩
    refine ⟨fun j hj => ?_, fun j l hj hjl => ?_⟩
    · by_cases hij : i = j
      · subst hij
        rw [s.slot_allocate_same] at hj
        cases hj
      · rw [hne j hij] at hj ⊢
        exact hfree j hj
    · by_cases hij : i = j
      · subst hij
        by_cases hil : i = l
        · exact hil
        · rw [hnew, hne l hil] at hjl
          exact absurd hjl.symm (hother l hil)
      · rw [hne j hij] at hj hjl
        by_cases hil : i = l
        · subst hil
          rw [hnew] at hjl
          exact absurd hjl (hother j hij)
        · rw [hne l hil] at hjl
          exact huniq j l hj hjl
  | clear _ =>
    refine ⟨fun i _ => by rw [s.slot_clearSlots]; rfl, fun i j hi _ => ?_⟩
    rw [s.slot_clearSlots] at hi
    exact absurd rfl hi
  | rest u hr => exact hsame (fun i => by rw [hr.slot]) fun i hi => by rwa [hr.slot] at hi

/-- Settles O6: a slot takes a page only when no other carries it. -/
theorem noTwoSlotsCarryOnePage : Obligations.NoTwoSlotsCarryOnePage := by
  intro s u _ hpages hstep
  obtain ⟨k, pending, now, -, hedits⟩ := step_chain hstep
  exact hedits.keeps (fun m v he => he.pagesOk) hpages

end Sys2Proof.Machine

/-! PROOF. The write merge and the allocation, each as one explicit next state (R11, R13, R14, R49, R53, R54). -/

namespace Sys2Proof.Machine

variable {s : State} {i : SlotIx} {acc : Access} {page : Nat}

/-! ### States with the same parts -/

theorem State.setSlot_setSlot (s : State) (i : SlotIx) (x y : Slot) : (s.setSlot i x).setSlot i y = s.setSlot i y := by
  simp [State.setSlot, Vector.set_set]

theorem State.setSlot_slot (s : State) (i : SlotIx) : s.setSlot i (s.slot i) = s := by
  simp [State.setSlot, State.slot]

theorem State.modSlot_eq (s : State) (i : SlotIx) (f : Slot → Slot) : s.modSlot i f = s.setSlot i (f (s.slot i)) := rfl

/-- Two changes of one slot are one. -/
theorem State.modSlot_modSlot (s : State) (i : SlotIx) (f g : Slot → Slot) :
    (s.modSlot i f).modSlot i g = s.setSlot i (g (f (s.slot i))) := by
  rw [State.modSlot_eq, State.slot_modSlot_same, State.modSlot_eq, State.setSlot_setSlot]

theorem State.setPort_setPort (s : State) (p : PortId) (h h' : HostPort) : (s.setPort p h).setPort p h' = s.setPort p h' := by
  cases p <;> rfl

theorem OnlySlots.port {u : State} (h : OnlySlots s u) (p : PortId) : u.port p = s.port p := by
  cases p
  · exact h.keeps (f := State.portA) fun _ => rfl
  · exact h.keeps (f := State.portB) fun _ => rfl

theorem OnlySlots.now {u : State} (h : OnlySlots s u) : u.now = s.now := h.keeps (f := State.now) fun _ => rfl

/-- An answer with data after a change of slots alone. -/
theorem OnlySlots.answer {u : State} (h : OnlySlots s u) (p : PortId) (rd : BitVec 32) :
    u.answer p rd = u.setPort p ((s.port p).answering s.now .none rd (s.port p).lastError) := by
  show u.setPort p _ = _
  rw [h.port, h.now]
  rfl

/-! ### Changes of state -/

/-- A CLEAN slot becomes DIRTY: out of the recency list, and to its place in the age list. -/
theorem State.moveTo_dirty_of_clean (h : (s.slot i).state = .clean) :
    s.moveTo i .dirty = State.enterAgeList { s with recency := s.recency.erase i
                                                    slots := s.slots.set i.val { s.slot i with state := .dirty } } i := by
  unfold State.moveTo State.leave
  rw [h]
  rfl

/-- The age list that a slot joins holds the DIRTY slots, that slot among them. -/
theorem State.enterAgeList_holds {m : State} (h : s.holds s.ageList .dirty) (hi : (s.slot i).state ≠ .dirty)
    (hage : m.ageList = s.ageList) (hsame : ∀ j, j ≠ i → (m.slot j).state = (s.slot j).state) (hm : (m.slot i).state = .dirty) :
    (m.enterAgeList i).holds (m.enterAgeList i).ageList .dirty := by
  obtain ⟨hnodup, hmem⟩ := h
  have hnot : i ∉ s.ageList := fun hi' => hi ((hmem i).1 hi')
  have hperm : (m.enterAgeList i).ageList.Perm (i :: s.ageList) := hage ▸ m.insertByAge_perm i m.ageList
  refine ⟨hperm.nodup_iff.2 (List.nodup_cons.2 ⟨hnot, hnodup⟩), fun j => ?_⟩
  show _ ↔ (m.slot j).state = .dirty
  rw [hperm.mem_iff, List.mem_cons, hmem]
  by_cases hj : j = i
  · subst hj
    simp [hm]
  · simp [hj, hsame j hj]

/-- The place in the age list depends on the dirty-since times alone. -/
theorem State.insertByAge_congr {s u : State} (h : ∀ j, (u.slot j).dirtySince = (s.slot j).dirtySince) (i : SlotIx)
    (l : List SlotIx) : u.insertByAge i l = s.insertByAge i l := by
  induction l with
  | nil => rfl
  | cons j rest ih =>
    have hold : u.olderThan i j = s.olderThan i j := by
      unfold State.olderThan
      rw [h i, h j]
    rw [State.insertByAge, State.insertByAge, hold, ih]

/-- A slot in the age list whose record changes, but for its dirty-since time. -/
theorem State.enterAgeList_setSlot (s : State) {i : SlotIx} {y : Slot} (h : y.dirtySince = (s.slot i).dirtySince) :
    (s.enterAgeList i).setSlot i y = (s.setSlot i y).enterAgeList i := by
  have hsince : ∀ j, ((s.setSlot i y).slot j).dirtySince = (s.slot j).dirtySince := fun j => by
    rw [State.slot_setSlot]
    split
    · subst j
      exact h
    · rfl
  unfold State.enterAgeList
  rw [State.insertByAge_congr hsince]
  rfl

/-- The deadlines of a slot that has none (R48). -/
theorem State.giveDeadlines_of_none (h : (s.slot i).settle = none ∧ (s.slot i).age = none) :
    s.giveDeadlines i = s.setSlot i
      { s.slot i with settle := s.newSettle, age := s.newAge ((s.slot i).dirtySince.getD s.now) } := by
  have hsame : { s.slot i with settle := none, age := none } = s.slot i := by
    obtain ⟨hsettle, hage⟩ := h
    cases hx : s.slot i
    rw [hx] at hsettle hage
    simp_all
  unfold State.giveDeadlines State.newSettle State.newAge
  split
  · rfl
  · rw [hsame, State.setSlot_slot]

/-! ### The write merge by the state of its slot -/

/-- SEALED, COMMITTING and PINNED keep state and place. -/
theorem State.merge_undurable (h : (s.slot i).state = .sealed ∨ (s.slot i).state = .committing ∨ (s.slot i).state = .pinned) :
    s.merge i acc = s.setSlot i ((s.slot i).merge acc s.now) := by
  unfold State.merge
  rcases h with h | h | h <;> rw [h] <;> rfl

/-- A DIRTY slot after a merge: the settle deadline that it carries restarts (R49). -/
def Slot.mergedDirty (x : Slot) (acc : Access) (now : Time) (deadline : Time) : Slot :=
  { x.merge acc now with settle := x.settle.map fun _ => deadline }

/-- A DIRTY slot keeps its place, and is sealed when the merge made it full. -/
theorem State.merge_dirty (h : (s.slot i).state = .dirty) :
    s.merge i acc =
      (s.setSlot i ((s.slot i).mergedDirty acc s.now (s.now + s.params.settle * Config.settleUnit))).fullPage i := by
  unfold State.merge
  rw [h]
  dsimp only
  rw [State.modSlot_modSlot, Slot.restartSettle_eq]
  rfl

/-- The full-page check of a slot that is not full, or where no seal applies. -/
theorem State.fullPage_not (h : ¬s.works ∨ (s.slot i).dirty ≠ fullSet) : s.fullPage i = s := by
  unfold State.fullPage
  rw [if_neg]
  rintro ⟨hworks, hfull⟩
  exact h.elim (fun hnot => hnot ((State.committable_iff s).1 hworks)) fun hnot => hnot hfull

/-- The full-page check of a full DIRTY slot. -/
theorem State.fullPage_full (hage : s.holds s.ageList .dirty) (hi : (s.slot i).state = .dirty) (hworks : s.works)
    (hfull : (s.slot i).dirty = fullSet) : s.fullPage i = s.sealedTo (s.sealsFor i) := by
  unfold State.fullPage
  rw [if_pos ⟨(State.committable_iff s).2 hworks, hfull⟩, State.sealNamed_eq s hage hi]

theorem State.merge_dirty_stays (h : (s.slot i).state = .dirty)
    (hnot : ¬s.works ∨ ((s.slot i).merge acc s.now).dirty ≠ fullSet) : s.merge i acc =
      s.setSlot i ((s.slot i).mergedDirty acc s.now (s.now + s.params.settle * Config.settleUnit)) := by
  rw [State.merge_dirty h]
  refine State.fullPage_not (hnot.imp_right fun hd => ?_)
  rwa [State.slot_setSlot_same]

/-- A change of a DIRTY slot's record that leaves it DIRTY leaves the age list right. -/
theorem State.setSlot_holds_dirty (hage : s.holds s.ageList .dirty) (h : (s.slot i).state = .dirty) {y : Slot}
    (hy : y.state = .dirty) : (s.setSlot i y).holds (s.setSlot i y).ageList .dirty := by
  refine ⟨hage.1, fun j => (hage.2 j).trans ?_⟩
  rw [State.slot_setSlot]
  split
  · subst j
    simp [h, hy]
  · rfl

theorem State.merge_dirty_full (hage : s.holds s.ageList .dirty) (h : (s.slot i).state = .dirty) (hworks : s.works)
    (hfull : ((s.slot i).merge acc s.now).dirty = fullSet) :
    s.merge i acc =
      let m := s.setSlot i ((s.slot i).mergedDirty acc s.now (s.now + s.params.settle * Config.settleUnit))
      m.sealedTo (m.sealsFor i) := by
  rw [State.merge_dirty h]
  have hy : ((s.slot i).mergedDirty acc s.now (s.now + s.params.settle * Config.settleUnit)).state = .dirty := h
  refine State.fullPage_full (State.setSlot_holds_dirty hage h hy) ?_ hworks ?_
  · rwa [State.slot_setSlot_same]
  · rwa [State.slot_setSlot_same]

/-- A CLEAN slot after a merge: DIRTY, with the deadlines of the moment. -/
def State.mergedClean (s : State) (x : Slot) (acc : Access) : Slot :=
  { x.merge acc s.now with state := .dirty, settle := s.newSettle, age := s.newAge s.now }

/-- A CLEAN slot joins the age list, and the oldest slots above HIGHWATER are sealed. -/
theorem State.merge_clean (h : (s.slot i).state = .clean) (hnone : (s.slot i).settle = none ∧ (s.slot i).age = none)
    (hdirty : (s.slot i).dirty = 0) (hage : s.holds s.ageList .dirty) :
    s.merge i acc =
      let d := State.enterAgeList { s with recency := s.recency.erase i
                                           slots := s.slots.set i.val (s.mergedClean (s.slot i) acc) } i
      d.sealedTo d.overflow := by
  have hsince : ((s.slot i).merge acc s.now).dirtySince = some s.now := if_pos hdirty
  unfold State.merge
  rw [h]
  dsimp only
  rw [State.modSlot_eq, State.moveTo_dirty_of_clean (by rwa [State.slot_setSlot_same]), State.slot_setSlot_same]
  generalize hm : ({ s.setSlot i ((s.slot i).merge acc s.now) with
    recency := (s.setSlot i ((s.slot i).merge acc s.now)).recency.erase i
    slots := (s.setSlot i ((s.slot i).merge acc s.now)).slots.set i.val { (s.slot i).merge acc s.now with state := .dirty } } : State) = m
  have hmi : m.slot i = { (s.slot i).merge acc s.now with state := .dirty } := hm ▸ State.slot_setSlot_same _ i _
  have hage' : (m.enterAgeList i).slot i = m.slot i := rfl
  rw [State.giveDeadlines_of_none (by rw [hage', hmi]; exact hnone), hage', hmi, State.enterAgeList_setSlot m (by rw [hmi])]
  have hd : m.setSlot i { { (s.slot i).merge acc s.now with state := .dirty } with
      settle := (m.enterAgeList i).newSettle, age := (m.enterAgeList i).newAge (((s.slot i).merge acc s.now).dirtySince.getD m.now) } =
      { s with recency := s.recency.erase i, slots := s.slots.set i.val (s.mergedClean (s.slot i) acc) } := by
    rw [hsince, ← hm]
    simp [State.setSlot, State.mergedClean, Vector.set_set, State.newSettle, State.newAge, State.enterAgeList]
  refine (congrArg (fun d => (State.enterAgeList d i).highWater) hd).trans (State.highWater_eq _ ?_)
  refine State.enterAgeList_holds (s := s) (i := i) hage (by rw [h]; nofun) rfl (fun j hj => ?_) ?_
  · exact congrArg Slot.state (State.slot_setSlot_ne s _ (Ne.symm hj))
  · exact congrArg Slot.state (State.slot_setSlot_same s i (s.mergedClean (s.slot i) acc))

/-! ### Allocation -/

/-- The slot that an allocation takes is FREE or CLEAN. -/
theorem State.takes_state (hcoll : s.collectionsOk) (h : s.takes i) : (s.slot i).state = .free ∨ (s.slot i).state = .clean := by
  obtain ⟨⟨-, hfree⟩, ⟨-, hclean⟩, -⟩ := hcoll
  rcases h with h | ⟨-, -, h, -⟩
  · exact .inl ((hfree i).1 (List.mem_of_head? h))
  · exact .inr ((hclean i).1 h)

/-- A FREE or CLEAN slot leaves the one of the two lists that holds it; from the other there is nothing to take. -/
theorem State.leave_of_takes (hcoll : s.collectionsOk) (h : s.takes i) :
    s.leave i = { s with freeList := s.freeList.erase i, recency := s.recency.erase i } := by
  obtain ⟨⟨-, hfree⟩, ⟨-, hclean⟩, -⟩ := id hcoll
  rcases State.takes_state hcoll h with hs | hs
  · have hnot : i ∉ s.recency := fun hi => by simp [(hclean i).1 hi] at hs
    unfold State.leave
    rw [hs, List.erase_of_not_mem hnot]
  · have hnot : i ∉ s.freeList := fun hi => by simp [(hfree i).1 hi] at hs
    unfold State.leave
    rw [hs, List.erase_of_not_mem hnot]

/-- An allocation as one next state. -/
theorem State.allocate_eq (hcoll : s.collectionsOk) (h : s.takes i) (page : Nat) :
    s.allocate i page = { s with freeList := s.freeList.erase i, recency := s.recency.erase i ++ [i]
                                 slots := s.slots.set i.val { (s.slot i).emptied with state := .clean, page := some page } } := by
  unfold State.allocate State.moveTo
  rw [State.leave_of_takes hcoll h, State.modSlot_eq]
  simp [State.join, State.modSlot, State.setSlot, Vector.set_set, State.slot, Slot.become, Slot.emptied]

/-- A DIRTY slot with exactly the bytes of a write, on the image values of the slot before it. -/
def State.freshlyWritten (s : State) (x : Slot) (acc : Access) : Slot :=
  { state := .dirty, page := some acc.page, image := Page.put x.image acc.offset acc.bytes, present := acc.offsets
    dirty := acc.offsets, dirtySince := some s.now, settle := s.newSettle, age := s.newAge s.now, fillPending := none, waitA := none
    waitB := none }

/-- A write merged into a slot just allocated for it. -/
theorem State.merge_allocate (hcoll : s.collectionsOk) (h : s.takes i) :
    (s.allocate i acc.page).merge i acc =
      let d := State.enterAgeList { s with freeList := s.freeList.erase i, recency := s.recency.erase i
                                           slots := s.slots.set i.val (s.freshlyWritten (s.slot i) acc) } i
      d.sealedTo d.overflow := by
  have hslot := s.slot_allocate_same i acc.page
  obtain ⟨-, ⟨hnodup, -⟩, -⟩ := id hcoll
  obtain ⟨-, -, hage, -⟩ := State.allocate_collectionsOk hcoll i acc.page
  have herase : (s.recency.erase i ++ [i]).erase i = s.recency.erase i := by
    rw [List.erase_append_right _ hnodup.not_mem_erase]
    simp
  have hnew : (s.allocate i acc.page).mergedClean ((s.allocate i acc.page).slot i) acc = s.freshlyWritten (s.slot i) acc := by
    rw [hslot, State.allocate_eq hcoll h]
    simp [State.mergedClean, State.freshlyWritten, Slot.merge, Slot.emptied, State.newSettle, State.newAge]
  rw [State.merge_clean (by rw [hslot]) (by rw [hslot]; exact ⟨rfl, rfl⟩) (by rw [hslot]; rfl) hage, hnew, State.allocate_eq hcoll h]
  simp [Vector.set_set, herase]

end Sys2Proof.Machine

/-! PROOF. Data lanes (R26), answers and the last-error record (R45), and the write path of a waiting write (R12). -/

namespace Sys2Proof.Machine

variable {s u : State} {i : SlotIx} {acc : Access}

/-! ### Lanes and offsets -/

theorem span_getLsbD (off n k : Nat) :
    (span off n).getLsbD k = decide (k < 64 ∧ off ≤ k ∧ k < off + n) := by
  unfold span
  rw [BitVec.getLsbD_ofNat, Nat.testBit_shiftLeft, Nat.testBit_two_pow_sub_one]
  by_cases hk : k < 64 <;> by_cases ho : off ≤ k <;> by_cases hn : k < off + n <;> simp [hk, ho, hn] <;> omega

theorem laneBytes_length (w : BitVec 32) (n : Nat) : (laneBytes w n).length = n := by
  induction n generalizing w with
  | zero => rfl
  | succ n ih => simp [laneBytes, ih]

/-- The byte of a lane. -/
theorem laneBytes_getD (w : BitVec 32) (n k : Nat) (hk : k < n) : (laneBytes w n).getD k 0 = w.extractLsb' (8 * k) 8 := by
  induction n generalizing w k with
  | zero => omega
  | succ n ih =>
    cases k with
    | zero =>
      refine BitVec.eq_of_getLsbD_eq fun j hj => ?_
      simp [laneBytes, hj]
    | succ k =>
      rw [laneBytes, List.getD_cons_succ, ih _ _ (by omega)]
      refine BitVec.eq_of_getLsbD_eq fun j hj => ?_
      simp only [BitVec.getLsbD_extractLsb', BitVec.getLsbD_ushiftRight]
      congr 2
      omega

/-- The byte on lane `k` of bytes assembled. -/
theorem assemble_lane (l : List Byte) (k : Nat) (hk : k < 4) : (assemble l).extractLsb' (8 * k) 8 = l.getD k 0 := by
  induction l generalizing k with
  | nil => simp [assemble]
  | cons b bs ih =>
    cases k with
    | zero =>
      refine BitVec.eq_of_getLsbD_eq fun j hj => ?_
      simp only [assemble, List.getD_cons_zero, BitVec.getLsbD_extractLsb', BitVec.getLsbD_or, BitVec.getLsbD_setWidth,
        BitVec.getLsbD_shiftLeft]
      simp [hj]
      omega
    | succ k =>
      rw [List.getD_cons_succ, ← ih k (by omega)]
      refine BitVec.eq_of_getLsbD_eq fun j hj => ?_
      have hb : b.getLsbD (8 * (k + 1) + j) = false := BitVec.getLsbD_of_ge _ _ (by omega)
      have hsub : 8 * (k + 1) + j - 8 = 8 * k + j := by omega
      simp only [assemble, BitVec.getLsbD_extractLsb', BitVec.getLsbD_or, BitVec.getLsbD_setWidth, BitVec.getLsbD_shiftLeft, hb, hsub]
      have h1 : 8 * (k + 1) + j < 32 := by omega
      have h2 : ¬8 * (k + 1) + j < 8 := by omega
      simp [hj, h1, h2]

/-- The bytes of an image with a list written from an offset on. -/
theorem Page.byte_put (im : Page) (off : Nat) (l : List Byte) (n : Nat) (hl : off + l.length ≤ 64) :
    Page.byte (Page.put im off l) n = if off ≤ n ∧ n < off + l.length then l.getD (n - off) 0 else Page.byte im n := by
  induction l generalizing im off with
  | nil => rw [Page.put, if_neg fun h => Nat.not_lt.2 h.1 h.2]
  | cons b bs ih =>
    rw [List.length_cons] at hl ⊢
    rw [Page.put, ih _ _ (by omega), Page.byte_setIfInBounds]
    rcases Nat.lt_trichotomy n off with hlt | rfl | hgt
    · rw [if_neg (by omega), if_neg (by omega), if_neg (by omega)]
    · rw [if_neg (by omega), if_pos (by omega), if_pos (by omega), Nat.sub_self]
      rfl
    · have hsub : n - off = n - (off + 1) + 1 := by omega
      by_cases hn : n < off + (bs.length + 1)
      · rw [if_pos (by omega), if_pos (by omega), hsub, List.getD_cons_succ]
      · rw [if_neg (by omega), if_neg (by omega), if_neg (by omega)]

/-- An aligned access lies within its page. -/
theorem Access.within {acc : Access} (hsize : acc.size ≠ 3) (halign : acc.addr.toNat % sizeBytes acc.size = 0) :
    acc.offset + sizeBytes acc.size ≤ 64 := by
  have hs : acc.size = 0 ∨ acc.size = 1 ∨ acc.size = 2 := by
    revert hsize
    generalize acc.size = z
    revert z
    decide
  unfold Access.offset
  rcases hs with h | h | h <;> rw [h] at halign ⊢ <;> simp only [sizeBytes] at halign ⊢ <;> simp at halign ⊢ <;> omega

/-- Settles O20: lane by lane, and offset by offset. -/
theorem dataLanesCarryBytesLittleEndian : Obligations.DataLanesCarryBytesLittleEndian := by
  intro acc f x now k hsize halign
  have hwithin := Access.within hsize halign
  have hlength : acc.bytes.length = sizeBytes acc.size := laneBytes_length _ _
  have hbyte : ∀ n, Page.byte (x.merge acc now).image n =
      if acc.offset ≤ n ∧ n < acc.offset + sizeBytes acc.size then acc.bytes.getD (n - acc.offset) 0 else Page.byte x.image n :=
    fun n => by rw [Slot.merge_image, Page.byte_put _ _ _ _ (by omega), hlength]
  have hset : ∀ n, acc.offsets.getLsbD n = decide (n < 64 ∧ acc.offset ≤ n ∧ n < acc.offset + sizeBytes acc.size) :=
    fun n => span_getLsbD _ _ _
  refine ⟨fun hk => ?_, fun hk => ?_, fun hk => ?_, rfl⟩
  · rw [Access.readValue, assemble_lane _ _ hk]
    split
    · simp [List.getD, ‹k < sizeBytes acc.size›]
    · simp [List.getD, ‹¬k < sizeBytes acc.size›]
  · refine ⟨?_, ?_, ?_⟩
    · rw [hbyte, if_pos (by omega), Nat.add_sub_cancel_left]
      exact laneBytes_getD _ _ _ hk
    · rw [Slot.merge_present, BitVec.getLsbD_or, hset]
      simp
      omega
    · rw [Slot.merge_dirty, BitVec.getLsbD_or, hset]
      simp
      omega
  · have hnot : acc.offsets.getLsbD k = false := by
      rw [hset, decide_eq_false_iff_not]
      omega
    refine ⟨?_, ?_, ?_⟩
    · rw [hbyte, if_neg (by omega)]
    · rw [Slot.merge_present, BitVec.getLsbD_or, hnot, Bool.or_false]
    · rw [Slot.merge_dirty, BitVec.getLsbD_or, hnot, Bool.or_false]

/-! ### Answers -/

theorem State.answer_eq (s : State) (p : PortId) (rd : BitVec 32) :
    s.answer p rd = s.setPort p ((s.port p).answering s.now .none rd (s.port p).lastError) := rfl

theorem State.answerNotReady_eq (s : State) (p : PortId) :
    s.answerNotReady p = s.setPort p ((s.port p).answering s.now .notReady 0 (s.port p).lastError) := rfl

/-- An error response in the statements' words. -/
theorem State.answerError_refusing (s : State) {p : PortId} {acc : Access} {reason : Reason} (detail : Detail)
    (h : (s.port p).access = some acc) :
    s.answerError p reason detail = s.setPort p ((s.port p).refusing s.now acc reason detail) := by
  rw [State.answerError_eq s reason detail h]
  have hcount : (if (s.port p).lastError.count < 255 then (s.port p).lastError.count + 1 else 255) =
      min ((s.port p).lastError.count + 1) 255 := by
    split <;> omega
  have hrecord : (s.port p).recordError acc reason detail =
      { s.port p with lastError := (s.port p).lastError.after acc reason detail } := by
    rw [HostPort.recordError, hcount]
    rfl
  rw [hrecord, HostPort.present_eq, HostPort.refusing]
  simp only [ite_self]
  rfl

/-- Settles O19: an error response is entered in its port's record, and the count stops at 255. -/
theorem lastErrorRecordsErrorResponses : Obligations.LastErrorRecordsErrorResponses := by
  intro s p acc reason detail rd hacc _ _
  refine ⟨?_, rfl, rfl, ?_⟩
  · rw [State.answerError_eq s reason detail hacc, HostPort.present_eq]
    simp only [ite_self]
    rfl
  · rw [State.answerError_eq s reason detail hacc]
    cases p <;> rfl

end Sys2Proof.Machine

/-! PROOF. The grant rule (R93, R94), what a grant does (R68, R96, R97), and the end of a fill as one explicit next state (R18). -/

namespace Sys2Proof.Machine

variable {s u : State} {i : SlotIx} {p : PortId} {acc : Access}

/-! ### The use of a CLEAN slot -/

/-- A use puts a CLEAN slot at the recency tail and leaves any other. -/
theorem State.touch_eq (s : State) {i : SlotIx} (h : (s.slot i).state ≠ .dirty → (s.slot i).settle = none ∧ (s.slot i).age = none) :
    s.touch i = { s with recency := if (s.slot i).state = .clean then s.recency.erase i ++ [i] else s.recency } := by
  by_cases hc : (s.slot i).state = .clean
  · obtain ⟨hsettle, hage⟩ := h (by rw [hc]; nofun)
    have hbecome : (s.slot i).become .clean = s.slot i := by
      cases hx : s.slot i
      rw [hx] at hc hsettle hage
      simp_all [Slot.become]
    have hleave : s.leave i = { s with recency := s.recency.erase i } := by
      unfold State.leave
      rw [hc]
    unfold State.touch State.moveTo
    rw [hc, hleave, if_pos rfl]
    show State.join (State.setSlot { s with recency := s.recency.erase i } i ((s.slot i).become .clean)) i .clean = _
    rw [hbecome]
    simp [State.join, State.setSlot, State.slot]
  · rw [if_neg hc]
    unfold State.touch
    cases hs : (s.slot i).state <;> first | rfl | exact absurd hs hc

/-! ### The end of a fill -/

theorem State.answerWaiter_none (h : (s.slot i).wait p = none) : State.answerWaiter i s p = s := by
  unfold State.answerWaiter
  rw [h]

/-- A port whose bytes are present is answered from the image and leaves the slot. -/
theorem State.answerWaiter_some {w : OffsetSet} (h : (s.slot i).wait p = some w) (hacc : (s.port p).access ≠ none)
    (hsub : subset w (s.slot i).present = true) :
    State.answerWaiter i s p = (s.setSlot i ((s.slot i).setWait p none)).setPort p ((s.port p).servedFrom s.now (s.slot i).image) := by
  obtain ⟨acc, hacc⟩ := Option.ne_none_iff_exists'.1 hacc
  unfold State.answerWaiter HostPort.servedFrom
  rw [h, hacc]
  dsimp only
  rw [if_pos hsub, State.answer_eq]
  cases p <;> rfl

/-- Every waiting port of a slot has its bytes present and its access outstanding. -/
def State.waitersServable (s : State) (i : SlotIx) : Prop :=
  ∀ p w, (s.slot i).wait p = some w → (s.port p).access ≠ none ∧ subset w (s.slot i).present = true

/-- Both waiting ports answered. -/
theorem State.answerWaiters_eq (h : s.waitersServable i) :
    s.answerWaiters i =
      { s with slots := s.slots.set i.val { s.slot i with waitA := none, waitB := none }
               portA := if (s.slot i).waitA = none then s.portA else s.portA.servedFrom s.now (s.slot i).image
               portB := if (s.slot i).waitB = none then s.portB else s.portB.servedFrom s.now (s.slot i).image } := by
  unfold State.answerWaiters
  rw [List.foldl_cons, List.foldl_cons, List.foldl_nil]
  have hfirst : State.answerWaiter i s .a =
      { s with slots := s.slots.set i.val { s.slot i with waitA := none }
               portA := if (s.slot i).waitA = none then s.portA else s.portA.servedFrom s.now (s.slot i).image } := by
    cases hA : (s.slot i).waitA with
    | none =>
      have hx : { s.slot i with waitA := none } = s.slot i := by
        cases hx : s.slot i
        rw [hx] at hA
        simp_all
      rw [State.answerWaiter_none (p := .a) hA, hx, if_pos rfl]
      exact (State.setSlot_slot s i).symm
    | some w =>
      obtain ⟨hacc, hsub⟩ := h .a w hA
      rw [State.answerWaiter_some (p := .a) hA hacc hsub, if_neg (Option.some_ne_none w)]
      rfl
  generalize hm : State.answerWaiter i s .a = m at hfirst
  have hslot : m.slot i = { s.slot i with waitA := none } := by
    rw [hfirst]
    exact State.slot_setSlot_same s i _
  have hport : m.portB = s.portB := by rw [hfirst]
  have hnow : m.now = s.now := by rw [hfirst]
  cases hB : (s.slot i).waitB with
  | none =>
    have hx : { s.slot i with waitA := none, waitB := none } = { s.slot i with waitA := none } := by
      cases hx : s.slot i
      rw [hx] at hB
      simp_all
    rw [State.answerWaiter_none (p := .b) (by rw [hslot]; exact hB), hx, if_pos rfl]
    exact hfirst
  | some w =>
    obtain ⟨hacc, hsub⟩ := h .b w hB
    rw [State.answerWaiter_some (p := .b) (w := w) (by rw [hslot]; exact hB) (by rw [State.port, hport]; exact hacc)
      (by rw [hslot]; exact hsub), if_neg (Option.some_ne_none w), hslot, State.port, hport, hnow, hfirst]
    simp [State.setSlot, State.setPort, Slot.setWait, Vector.set_set]

/-- A fill over on its slot, its bytes landed where the slot had none. -/
theorem State.completeFill_eq (s : State) (i : SlotIx) (page : Nat) (offs : OffsetSet)
    (h : s.waitersReady i ((s.slot i).land (fun k => s.chip.read page k) offs).present) :
    s.completeFill i page offs = s.fillDone i ((s.slot i).land (fun k => s.chip.read page k) offs).image
      ((s.slot i).land (fun k => s.chip.read page k) offs).present := by
  obtain ⟨⟨hsubA, haccA⟩, ⟨hsubB, haccB⟩, -, -, hdeadlines⟩ := h
  generalize hland : (s.slot i).land (fun k => s.chip.read page k) offs = x at hsubA hsubB
  have hx : x = { s.slot i with image := x.image, present := x.present } := by rw [← hland]; rfl
  have hm : s.modSlot i (fun x => { x.land (fun k => s.chip.read page k) offs with fillPending := none }) =
      s.setSlot i { x with fillPending := none } := by rw [State.modSlot_eq, hland]
  have hservable : (s.setSlot i { x with fillPending := none }).waitersServable i := by
    intro p w hw
    rw [State.slot_setSlot_same] at hw ⊢
    rw [hx] at hw
    rw [State.port_setSlot]
    cases p with
    | a =>
      have hw : (s.slot i).waitA = some w := hw
      exact ⟨haccA.resolve_left (by rw [hw]; nofun), by simpa [hw] using hsubA⟩
    | b =>
      have hw : (s.slot i).waitB = some w := hw
      exact ⟨haccB.resolve_left (by rw [hw]; nofun), by simpa [hw] using hsubB⟩
  have hA : x.waitA = (s.slot i).waitA := by rw [hx]
  have hB : x.waitB = (s.slot i).waitB := by rw [hx]
  have hanswered : (s.setSlot i { x with fillPending := none }).answerWaiters i =
      { s with slots := s.slots.set i.val { x with fillPending := none, waitA := none, waitB := none }
               portA := if (s.slot i).waitA = none then s.portA else s.portA.servedFrom s.now x.image
               portB := if (s.slot i).waitB = none then s.portB else s.portB.servedFrom s.now x.image } := by
    rw [State.answerWaiters_eq hservable, State.slot_setSlot_same]
    simp [State.setSlot, Vector.set_set, hA, hB]
  have hdone : { s.slot i with image := x.image, present := x.present, fillPending := none, waitA := none, waitB := none } =
      { x with fillPending := none, waitA := none, waitB := none } := by rw [hx]
  unfold State.completeFill State.fillDone
  dsimp only
  rw [hm, hdone]
  generalize (s.setSlot i { x with fillPending := none }).answerWaiters i = answered at hanswered
  have hslot : answered.slot i = { x with fillPending := none, waitA := none, waitB := none } := by
    rw [hanswered]
    exact State.slot_setSlot_same s i _
  rw [hslot, State.slot_setSlot_same, hA, hB]
  by_cases hwaits : (s.slot i).waitA = none ∧ (s.slot i).waitB = none
  · obtain ⟨hnoA, hnoB⟩ := hwaits
    rw [if_pos (by simp [hnoA, hnoB]), hanswered]
    simp [hnoA, hnoB]
  · have hsome : (s.slot i).waitA ≠ none ∨ (s.slot i).waitB ≠ none := Classical.not_and_iff_not_or_not.1 hwaits
    have hstate : x.state = (s.slot i).state := by rw [hx]
    rw [if_neg (by rintro ⟨h, h'⟩; exact hwaits ⟨h.symm, h'.symm⟩), State.touch_eq]
    · rw [hslot, hstate, hanswered]
      simp [hsome, hstate]
    · rw [hslot, hx]
      exact hdeadlines

/-! ### The grant rule -/

/-- The requests are not touched where only slots and ports change. -/
theorem State.writeInto_requests (s : State) (p : PortId) (acc : Access) : (s.writeInto p acc).requests = s.requests := by
  have hanswer : ∀ m : State, OnlySlots s m → (m.answer p 0).requests = s.requests := fun m hm => by
    rw [State.answer_eq, State.setPort_requests, hm.keeps (f := State.requests) fun _ => rfl]
  unfold State.writeInto
  split
  · exact hanswer _ (s.merge_frame _ acc)
  · split
    · exact hanswer _ ((s.allocate_frame _ acc.page).trans (State.merge_frame _ _ acc))
    · rfl

theorem State.serveWrite_requests (s : State) (p : PortId) : (s.serveWrite p).requests = s.requests := by
  unfold State.serveWrite
  split
  · exact s.writeInto_requests p _
  · rfl

theorem State.serveWaiting_requests (s : State) : s.serveWaiting.requests = s.requests := by
  have h : ∀ (l : List PortId) (m : State), (l.foldl State.serveWrite m).requests = m.requests := by
    intro l
    induction l with
    | nil => exact fun _ => rfl
    | cons p rest ih => exact fun m => (ih _).trans (m.serveWrite_requests p)
  exact h _ s

theorem State.touch_requests (s : State) (i : SlotIx) : (s.touch i).requests = s.requests :=
  (s.touch_frame i).keeps (f := State.requests) fun _ => rfl

theorem State.answerWaiter_requests (i : SlotIx) (s : State) (p : PortId) : (State.answerWaiter i s p).requests = s.requests := by
  unfold State.answerWaiter
  split
  · split
    · rw [State.answer_eq, State.setPort_requests, State.modSlot_requests]
    · rfl
  · rfl

theorem State.completeFill_requests (s : State) (i : SlotIx) (page : Nat) (offs : OffsetSet) :
    (s.completeFill i page offs).requests = s.requests := by
  have h : ∀ f : Slot → Slot, ((s.modSlot i f).answerWaiters i).requests = s.requests := fun f => by
    simp only [State.answerWaiters, List.foldl_cons, List.foldl_nil, State.answerWaiter_requests, State.modSlot_requests]
  unfold State.completeFill
  dsimp only
  split
  · exact h _
  · rw [State.touch_requests, h]

/-- A grant takes the head of the list and adds no request. -/
theorem State.grantRequest_requests (s : State) (r : Request) : (s.grantRequest r).requests = s.requests.tail := by
  cases r with
  | fill i =>
    simp only [State.grantRequest]
    split
    · rw [State.serveWaiting_requests, State.completeFill_requests]
      rfl
    · rfl
  | bypass p =>
    simp only [State.grantRequest]
    split <;> rfl

theorem State.arrayFree_iff (s : State) : s.arrayFree = true ↔ s.freeArray := by
  simp [State.arrayFree, State.freeArray, and_assoc]

/-- The queue's offer in the statements' words. -/
theorem State.offer_eq (s : State) : s.offer =
    if s.works ∧ s.queue ≠ [] ∧ s.commit = none ∧ s.engineReq = none then { s with engineReq := some .commitEngine, fairness := 0 }
    else s := by
  unfold State.offer
  exact ite_of_iff (and_congr_left' (s.committable_iff)) rfl rfl

theorem State.offer_requests (s : State) : s.offer.requests = s.requests := by
  rw [State.offer_eq]
  split <;> rfl

/-- Settles O12: the rule's branches, and that one more grant is always left for the rest of the list. -/
theorem grantRuleOrder : Obligations.GrantRuleOrder := by
  rintro s m r rest hm
  have hoffer : s.offer = m := s.offer_eq.trans hm.symm
  have hrequests : m.requests = s.requests := hoffer ▸ s.offer_requests
  have hfinish : s.finish = (if m.arrayFree = false then m
      else if m.engineReq.isSome ∧ (m.pfw ∨ m.fairness = 4) then m.grantEngine
      else match m.requests with
        | r :: _ => State.arbitrate s.requests.length (m.grantRequest r)
        | [] => if m.engineReq.isSome then m.grantEngine else m) := by
    rw [← hoffer]
    rfl
  have hengine : m.engineReq.isSome = true ↔ m.engineReq ≠ none := Option.isSome_iff_ne_none
  refine ⟨fun hnot => ?_, fun hfree hreq hfirst => ?_, fun hfree hlater => ?_⟩
  · rw [hfinish, if_pos (Bool.eq_false_iff.2 fun h => hnot (m.arrayFree_iff.1 h))]
  · rw [hfinish, if_neg (by rw [m.arrayFree_iff.2 hfree]; nofun), if_pos ⟨hengine.2 hreq, hfirst⟩]
  · have hnot : ¬(m.engineReq.isSome ∧ (m.pfw ∨ m.fairness = 4)) := by
      rintro ⟨hreq, hfirst⟩
      rcases hlater with hnone | ⟨hpfw, hcount⟩
      · exact hengine.1 hreq hnone
      · exact hfirst.elim (by rw [hpfw]; nofun) hcount
    rw [hfinish, if_neg (by rw [m.arrayFree_iff.2 hfree]; nofun), if_neg hnot]
    refine ⟨fun hlist => ?_, fun hlist => ?_⟩
    · have hlength : s.requests.length = (m.grantRequest r).requests.length + 1 := by
        rw [m.grantRequest_requests, ← hrequests, hlist]
        rfl
      rw [hlist]
      dsimp only
      rw [hlength]
      rfl
    · rw [hlist]
      dsimp only
      by_cases hreq : m.engineReq = none
      · rw [if_neg (by simp [hreq]), if_pos hreq]
      · rw [if_pos (hengine.2 hreq), if_neg hreq]

/-! ### What a grant does -/

/-- With nothing missing no byte lands. -/
theorem Slot.land_empty (x : Slot) (f : Nat → Byte) : x.land f 0 = x := by
  have hmembers : members 0#64 = [] := by decide
  simp [Slot.land, hmembers, Page.putEach]

theorem State.takeRequest_eq {r : Request} {rest : List Request} (h : s.requests = r :: rest) : s.takeRequest =
    { s with requests := rest, fairness := if s.engineReq = none then s.fairness else s.fairness + 1 } := by
  unfold State.takeRequest
  rw [h]
  cases s.engineReq <;> rfl

/-- The commit engine's grant of a SEALED queue head. -/
theorem State.snapshot_eq {later : List SlotIx} {page : Nat} (hqueue : s.queue = i :: later) (hsealed : (s.slot i).state = .sealed)
    (hpage : (s.slot i).page = some page) : s.snapshot = State.issueLoad
      { s with slots := s.slots.set i.val
                 { s.slot i with state := .committing, dirty := 0, dirtySince := none, settle := none, age := none }
               queue := later, owner := .engine, engineReq := none, fairness := 0
               commit := some { slot := i, page, phase := .home, backfill := 0, homeFailing := 0, spare := none, tentative := none
                                newlyDead := []
                                attempt := Attempt.fresh (s.translate page) (s.slot i).dirty (s.slot i).image
                                  (ascending (s.slot i).dirty) } } := by
  have hleave : s.leave i = { s with queue := later } := by
    unfold State.leave
    rw [hsealed]
    dsimp only
    rw [hqueue, List.erase_cons_head]
  unfold State.snapshot
  rw [hqueue]
  dsimp only
  have hget : (s.slot i).page.getD 0 = page := by rw [hpage]; rfl
  rw [State.moveTo, hleave, hget]
  simp [State.join, State.modSlot, State.setSlot, State.slot, Vector.set_set, Slot.become]
  rfl

/-- Settles O13: each grant as one next state. -/
theorem grantGivesTheArray : Obligations.GrantGivesTheArray := by
  intro s i p acc page rest later x missing taken
  refine ⟨fun hreq hpage hmissing => ?_, fun hreq hmissing hready => ?_, fun hreq hacc => ?_, fun hengine hqueue hsealed hpage => ?_,
    fun hengine => ?_⟩
  · have hget : (s.slot i).page.getD 0 = page := by rw [hpage]; rfl
    simp only [State.grantRequest]
    rw [State.takeRequest_eq hreq]
    refine (if_neg hmissing).trans ?_
    show { taken with owner := .fill i, reading := some { kind := .fill i, page := s.translate ((s.slot i).page.getD 0)
                                                          offsets := missing, dropped := false } } = _
    rw [hget]
  · simp only [State.grantRequest]
    rw [State.takeRequest_eq hreq]
    refine (if_pos hmissing).trans (congrArg State.serveWaiting ?_)
    have hland : ∀ f : Nat → Byte, (taken.slot i).land f 0 = x := fun f => Slot.land_empty _ f
    rw [State.completeFill_eq taken i _ 0 (by rw [hland]; exact hready), hland]
  · simp only [State.grantRequest]
    rw [State.takeRequest_eq hreq]
    have hport : taken.port p = s.port p := by cases p <;> rfl
    show (match (taken.port p).access with | none => taken | some acc => _) = _
    rw [hport, hacc]
    rfl
  · unfold State.grantEngine
    rw [hengine]
    exact State.snapshot_eq hqueue hsealed hpage
  · unfold State.grantEngine
    rw [hengine]

end Sys2Proof.Machine

/-! PROOF. Waiting writes (R12), and the event of an access's arrival up to its answer or its wait (2.3 to 2.5). -/

namespace Sys2Proof.Machine

variable {s u : State} {i : SlotIx} {p : PortId} {acc : Access} {page : Nat}

/-! ### A write given a slot -/

/-- The answer to a write: OK, with RD 0 (log entry 12). -/
def State.okTo (s : State) (p : PortId) : HostPort := (s.port p).answering s.now .none 0 (s.port p).lastError

theorem State.writeInto_carried (h : s.soleCarrier i acc.page) :
    s.writeInto p acc = (s.merge i acc).setPort p (s.okTo p) := by
  unfold State.writeInto
  rw [State.lookup_of_soleCarrier h]
  exact (s.merge_frame i acc).answer p 0

theorem State.writeInto_uncarried (hpage : s.uncarried acc.page) (hcoll : s.collectionsOk) (h : s.takes i) :
    s.writeInto p acc =
      let d := State.enterAgeList { s with freeList := s.freeList.erase i, recency := s.recency.erase i
                                           slots := s.slots.set i.val (s.freshlyWritten (s.slot i) acc) } i
      (d.sealedTo d.overflow).setPort p (s.okTo p) := by
  unfold State.writeInto
  rw [(State.lookup_none_iff s acc.page).2 hpage, State.allocatable_of_takes h]
  dsimp only
  rw [((s.allocate_frame i acc.page).trans (State.merge_frame _ i acc)).answer p 0, State.merge_allocate hcoll h]
  rfl

theorem State.writeInto_none (hpage : s.uncarried acc.page) (h : s.noneAllocatable) : s.writeInto p acc = s := by
  unfold State.writeInto
  rw [(State.lookup_none_iff s acc.page).2 hpage, (State.allocatable_none_iff s).2 h]

/-! ### Waiting writes -/

theorem State.serveWrite_waiting (hstate : (s.port p).state = .waitSlot) (hacc : (s.port p).access = some acc) :
    s.serveWrite p = s.writeInto p acc := by
  unfold State.serveWrite
  rw [hstate, hacc]

theorem State.serveWrite_other (h : (s.port p).state ≠ .waitSlot) : s.serveWrite p = s := by
  unfold State.serveWrite
  split
  · exact absurd ‹_› h
  · rfl

theorem State.serveWaiting_none (h : s.noWriteWaits) : s.serveWaiting = s := by
  have hone : ∀ p, s.serveWrite p = s := fun p => by
    cases p
    · exact State.serveWrite_other h.1
    · exact State.serveWrite_other h.2
  unfold State.serveWaiting
  generalize s.portsByArrival = l
  induction l with
  | nil => rfl
  | cons p rest ih => rw [List.foldl_cons, hone, ih]

/-- The ports in the order of their accesses' arrival. -/
theorem State.portsByArrival_both {a b : Access} (ha : s.portA.access = some a) (hb : s.portB.access = some b) :
    s.portsByArrival = if b.order < a.order then [.b, .a] else [.a, .b] := by
  unfold State.portsByArrival
  rw [ha, hb]

theorem State.portsByArrival_one (h : s.portA.access = none ∨ s.portB.access = none) : s.portsByArrival = [.a, .b] := by
  unfold State.portsByArrival
  rcases h with h | h
  · rw [h]
  · rw [h]
    cases s.portA.access <;> rfl

/-- Settles O14: which slot a waiting write is given, and which of two writes comes first. -/
theorem waitingWritesTakeAllocatableSlots : Obligations.WaitingWritesTakeAllocatableSlots := by
  intro s p acc i accA accB
  refine ⟨State.serveWaiting_none, fun hstate hacc hpage hnone => ?_, fun hstate hacc hpage htakes hcoll _ => ?_, fun ha hb => ?_,
    fun h => ?_, fun hstate hacc hcarrier => ⟨fun hs => ?_, fun hs hnot => ?_, fun hs hage hworks hfull => ?_,
      fun hs hfields hsets hage => ?_⟩⟩
  · rw [State.serveWrite_waiting hstate hacc, State.writeInto_none hpage hnone]
  · rw [State.serveWrite_waiting hstate hacc, State.writeInto_uncarried hpage hcoll htakes]
    rfl
  · unfold State.serveWaiting
    rw [State.portsByArrival_both ha hb]
    split <;> rfl
  · unfold State.serveWaiting
    rw [State.portsByArrival_one h]
    rfl
  · rw [State.serveWrite_waiting hstate hacc, State.writeInto_carried hcarrier, State.merge_undurable hs]
    rfl
  · rw [State.serveWrite_waiting hstate hacc, State.writeInto_carried hcarrier, State.merge_dirty_stays hs hnot]
    rfl
  · rw [State.serveWrite_waiting hstate hacc, State.writeInto_carried hcarrier, State.merge_dirty_full hage hs hworks hfull]
    rfl
  · obtain ⟨-, -, hdeadlines⟩ := hfields
    obtain ⟨-, -, hclean, -⟩ := hsets
    rw [State.serveWrite_waiting hstate hacc, State.writeInto_carried hcarrier,
      State.merge_clean hs (hdeadlines (by rw [hs]; nofun)) (hclean hs) hage]
    rfl

/-! ### An access taken -/

/-- The event of an access that a ready port takes. -/
theorem execAccessArrival_ready (h : (s.port p).ready) (t : Time) (wr : Bool) (addr : BitVec 17) (size : BitVec 2) (wd : BitVec 32) :
    execAccessArrival t p wr addr size wd s = .next (((s.tick t).arrive p (s.arrival t wr addr size wd)).finish) := by
  obtain ⟨hidle, hrdy, hspent⟩ := h
  show Host.Outcome.next (if ((s.tick t).port p).state ≠ .idle then _ else _) = _
  rw [State.port_tick, if_neg (Classical.not_not.2 hidle), if_neg (by rw [hrdy]; nofun), if_neg (by rw [hspent]; nofun)]
  rfl

/-- The port that has taken an access. -/
def HostPort.holding (h : HostPort) (acc : Access) : HostPort := { h with access := some acc, req := true, reqSpent := true }

theorem State.takeAccess_eq (s : State) (t : Time) (p : PortId) (acc : Access) :
    (s.tick t).takeAccess p acc = (s.taken t).setPort p ((s.port p).holding acc) := by
  cases p <;> rfl

/-- The arrival checks of an access, in the words of the event (R28). -/
theorem State.arrivalCheck_arrival (s : State) (t : Time) (wr : Bool) (addr : BitVec 17) (size : BitVec 2) (wd : BitVec 32) :
    (s.tick t).arrivalCheck (s.arrival t wr addr size wd) =
      if s.resetN = false then some (.notReady, .none)
      else if size = 3 then some (.misaligned, .badSize)
      else if addr.toNat % sizeBytes size ≠ 0 then some (.misaligned, .unaligned)
      else if windowBytes s.capacity ≤ addr.toNat then some (.outside, .none)
      else if wr ∧ s.pfw then some (.writeRefused, .powerFail)
      else if wr ∧ s.store.state = .degraded then some (.writeRefused, .degraded)
      else none := rfl

/-- An access that passes every check goes down its path. -/
theorem State.arrive_passes {t : Time} {wr : Bool} {addr : BitVec 17} {size : BitVec 2} (wd : BitVec 32) (h : s.passes wr addr size) :
    (s.tick t).arrive p (s.arrival t wr addr size wd) =
      let m := (s.taken t).setPort p ((s.port p).holding (s.arrival t wr addr size wd))
      if wr then m.writePath p (s.arrival t wr addr size wd) else m.readPath p (s.arrival t wr addr size wd) := by
  obtain ⟨hreset, hsize, halign, hwindow, hwrite⟩ := h
  have hcheck : (s.tick t).arrivalCheck (s.arrival t wr addr size wd) = none := by
    rw [State.arrivalCheck_arrival, if_neg (by rw [hreset]; nofun), if_neg hsize, if_neg (Classical.not_not.2 halign),
      if_neg (Nat.not_le.2 hwindow), if_neg, if_neg]
    · exact fun hw => (hwrite hw.1).2 hw.2
    · exact fun hw => by simpa [(hwrite hw.1).1] using hw.2
  unfold State.arrive
  dsimp only
  rw [hcheck, State.takeAccess_eq]
  rfl

/-- An access refused by a check other than RESET_N. -/
theorem State.arrive_refused {t : Time} {wr : Bool} {addr : BitVec 17} {size : BitVec 2} {wd : BitVec 32} {reason : Reason}
    {detail : Detail} (hreason : reason ≠ .notReady)
    (h : (s.tick t).arrivalCheck (s.arrival t wr addr size wd) = some (reason, detail)) :
    (s.tick t).arrive p (s.arrival t wr addr size wd) =
      (s.taken t).setPort p ((s.port p).requested.refusing (max s.now t) (s.arrival t wr addr size wd) reason detail) := by
  have hport : (((s.taken t).setPort p ((s.port p).holding (s.arrival t wr addr size wd))).port p).access =
      some (s.arrival t wr addr size wd) := by rw [State.port_setPort_same]; rfl
  unfold State.arrive
  dsimp only
  rw [h, State.takeAccess_eq]
  have herror : ∀ m : State, (match (some (reason, detail) : Option (Reason × Detail)) with
      | some (.notReady, _) => m.answerNotReady p
      | some (reason, detail) => m.answerError p reason detail
      | none => if (s.arrival t wr addr size wd).write then m.writePath p (s.arrival t wr addr size wd)
          else m.readPath p (s.arrival t wr addr size wd)) = m.answerError p reason detail := fun m => by
    cases reason <;> first | rfl | exact absurd rfl hreason
  refine (herror _).trans ?_
  rw [State.answerError_refusing _ detail hport, State.setPort_setPort, State.port_setPort_same, State.setPort_now]
  rfl

/-- Settles O23: the first check that applies gives the answer. -/
theorem arrivalRefusalsInOrder : Obligations.ArrivalRefusalsInOrder := by
  intro t p wr addr size wd s hready acc h refused answer
  have hanswer : answer = .next (((s.tick t).arrive p acc).finish) := execAccessArrival_ready hready t wr addr size wd
  have hrefused : ∀ (reason : Reason) (detail : Detail), reason ≠ .notReady →
      (s.tick t).arrivalCheck acc = some (reason, detail) → answer = refused reason detail := fun reason detail hr hc => by
    rw [hanswer, State.arrive_refused hr hc]
  have hcheck := s.arrivalCheck_arrival t wr addr size wd
  refine ⟨fun hreset => ?_, fun hreset hsize => ?_, fun hreset hsize halign => ?_, fun hreset hsize halign =>
    ⟨fun hwindow => ?_, fun hwindow hw => ⟨fun hpfw => ?_, fun hpfw hstore => ?_⟩⟩⟩
  · rw [if_pos hreset] at hcheck
    rw [hanswer]
    unfold State.arrive
    dsimp only
    rw [hcheck, State.takeAccess_eq]
    dsimp only
    rw [State.answerNotReady_eq, State.setPort_setPort, State.port_setPort_same, State.setPort_now]
    rfl
  · exact hrefused _ _ nofun (by rw [hcheck, if_neg (by rw [hreset]; nofun), if_pos hsize])
  · exact hrefused _ _ nofun (by rw [hcheck, if_neg (by rw [hreset]; nofun), if_neg hsize, if_pos halign])
  · exact hrefused _ _ nofun
      (by rw [hcheck, if_neg (by rw [hreset]; nofun), if_neg hsize, if_neg (Classical.not_not.2 halign), if_pos hwindow])
  · exact hrefused _ _ nofun (by rw [hcheck, if_neg (by rw [hreset]; nofun), if_neg hsize, if_neg (Classical.not_not.2 halign),
      if_neg (Nat.not_le.2 hwindow), if_pos ⟨hw, hpfw⟩])
  · exact hrefused _ _ nofun (by rw [hcheck, if_neg (by rw [hreset]; nofun), if_neg hsize, if_neg (Classical.not_not.2 halign),
      if_neg (Nat.not_le.2 hwindow), if_neg (by rw [hpfw]; simp), if_pos ⟨hw, hstore⟩])

end Sys2Proof.Machine

/-! PROOF. An access that passes its checks: hits, merges, waits and refusals, each as one explicit next state (2.4 to 2.6). -/

namespace Sys2Proof.Machine

variable {s b u : State} {i : SlotIx} {p : PortId} {acc : Access} {page : Nat} {h : HostPort}

/-! ### What a change of one port leaves -/

/-- The state in which an access just taken goes down its path: its port holds it. -/
def State.accepting (s : State) (t : Time) (p : PortId) (acc : Access) : State :=
  (s.taken t).setPort p ((s.port p).holding acc)

@[simp] theorem State.accepting_slot (s : State) (t : Time) (p : PortId) (acc : Access) (i : SlotIx) :
    (s.accepting t p acc).slot i = s.slot i := State.slot_setPort _ p _ i

@[simp] theorem State.accepting_port (s : State) (t : Time) (p : PortId) (acc : Access) :
    (s.accepting t p acc).port p = (s.port p).holding acc := State.port_setPort_same _ p _

@[simp] theorem State.accepting_now (s : State) (t : Time) (p : PortId) (acc : Access) :
    (s.accepting t p acc).now = max s.now t := State.setPort_now _ p _

@[simp] theorem State.accepting_store (s : State) (t : Time) (p : PortId) (acc : Access) :
    (s.accepting t p acc).store = s.store := State.setPort_store _ p _

@[simp] theorem State.accepting_params (s : State) (t : Time) (p : PortId) (acc : Access) :
    (s.accepting t p acc).params = s.params := State.setPort_params _ p _

theorem State.accepting_setPort (s : State) (t : Time) (p : PortId) (acc : Access) (h : HostPort) :
    (s.accepting t p acc).setPort p h = (s.taken t).setPort p h := State.setPort_setPort _ p _ h

theorem State.accepting_soleCarrier {t : Time} (hs : s.soleCarrier i acc.page) : (s.accepting t p acc).soleCarrier i acc.page := by
  cases p <;> exact hs

theorem State.accepting_uncarried {t : Time} (hs : s.uncarried acc.page) : (s.accepting t p acc).uncarried acc.page := by
  cases p <;> exact hs

theorem State.accepting_takes {t : Time} (hs : s.takes i) : (s.accepting t p acc).takes i := by cases p <;> exact hs

theorem State.accepting_noneAllocatable {t : Time} (hs : s.noneAllocatable) : (s.accepting t p acc).noneAllocatable := by
  cases p <;> exact hs

theorem State.accepting_collectionsOk {t : Time} (hs : s.collectionsOk) : (s.accepting t p acc).collectionsOk := by
  cases p <;> exact hs

theorem State.accepting_holds {t : Time} (hs : s.holds s.ageList .dirty) :
    (s.accepting t p acc).holds (s.accepting t p acc).ageList .dirty := by cases p <;> exact hs

theorem State.setSlot_setPort (s : State) (p : PortId) (h : HostPort) (i : SlotIx) (x : Slot) :
    (s.setPort p h).setSlot i x = (s.setSlot i x).setPort p h := by cases p <;> rfl

theorem State.sealedTo_setPort (s : State) (p : PortId) (h : HostPort) (l : List SlotIx) :
    (s.setPort p h).sealedTo l = (s.sealedTo l).setPort p h := by cases p <;> rfl

theorem State.sealsFor_setPort (s : State) (p : PortId) (h : HostPort) (i : SlotIx) :
    (s.setPort p h).sealsFor i = s.sealsFor i := by cases p <;> rfl

theorem State.overflow_setPort (s : State) (p : PortId) (h : HostPort) : (s.setPort p h).overflow = s.overflow := by cases p <;> rfl

theorem State.enterAgeList_setPort (s : State) (p : PortId) (h : HostPort) (i : SlotIx) :
    (s.setPort p h).enterAgeList i = (s.enterAgeList i).setPort p h := by
  unfold State.enterAgeList
  rw [State.insertByAge_congr (s := s) fun j => by rw [State.slot_setPort]]
  cases p <;> rfl

/-! ### The offsets of an access -/

/-- The offsets of an aligned access all present. -/
theorem Slot.covers_iff {addr : BitVec 17} {size : BitVec 2} (hsize : size ≠ 3) (halign : addr.toNat % sizeBytes size = 0) (x : Slot) :
    subset (span (addr.toNat % 64) (sizeBytes size)) x.present = true ↔ x.covers addr size := by
  have hwithin : addr.toNat % 64 + sizeBytes size ≤ 64 :=
    Access.within (acc := { write := false, addr, size, data := 0, arrival := 0, order := 0 }) hsize halign
  unfold subset
  rw [decide_eq_true_iff]
  constructor
  · intro heq k hk
    have hbit := congrArg (fun v : OffsetSet => v.getLsbD (addr.toNat % 64 + k)) heq
    simp only [BitVec.getLsbD_and, span_getLsbD] at hbit
    rw [decide_eq_true (by omega), Bool.true_and] at hbit
    exact hbit
  · intro hcover
    refine BitVec.eq_of_getLsbD_eq fun k hk => ?_
    rw [BitVec.getLsbD_and, span_getLsbD]
    by_cases hin : k < 64 ∧ addr.toNat % 64 ≤ k ∧ k < addr.toNat % 64 + sizeBytes size
    · have hbit := hcover (k - addr.toNat % 64) (by omega)
      rw [show addr.toNat % 64 + (k - addr.toNat % 64) = k by omega] at hbit
      rw [hbit, Bool.and_true]
    · rw [decide_eq_false hin, Bool.false_and]

/-! ### Reads -/

theorem State.readPath_hit (hcarrier : s.soleCarrier i acc.page) (hsub : subset acc.offsets (s.slot i).present = true)
    (hdeadlines : (s.slot i).state ≠ .dirty → (s.slot i).settle = none ∧ (s.slot i).age = none) :
    s.readPath p acc = State.setPort
      { s with recency := if (s.slot i).state = .clean then s.recency.erase i ++ [i] else s.recency } p
      ((s.port p).answering s.now .none (acc.readValue fun k => Page.byte (s.slot i).image k) (s.port p).lastError) := by
  unfold State.readPath
  rw [State.lookup_of_soleCarrier hcarrier]
  dsimp only
  rw [if_pos hsub]
  unfold State.readHit
  rw [(s.touch_frame i).answer, State.touch_eq s hdeadlines]
  rfl

theorem State.readPath_uncarried (h : s.uncarried acc.page) : s.readPath p acc = s.readMiss p acc none := by
  unfold State.readPath
  rw [(State.lookup_none_iff _ _).2 h]

theorem State.readPath_missing (hcarrier : s.soleCarrier i acc.page) (hsub : ¬subset acc.offsets (s.slot i).present = true) :
    s.readPath p acc = s.readMiss p acc (some i) := by
  unfold State.readPath
  rw [State.lookup_of_soleCarrier hcarrier]
  exact if_neg hsub

/-- The event of a read that passes its checks. -/
theorem execAccessArrival_read (hready : (s.port p).ready) (t : Time) {addr : BitVec 17} {size : BitVec 2} (wd : BitVec 32)
    (hpasses : s.passes false addr size) : exec (.accessArrival t p false addr size wd) s =
      .next (((s.accepting t p (s.arrival t false addr size wd)).readPath p (s.arrival t false addr size wd)).finish) := by
  refine (execAccessArrival_ready hready t false addr size wd).trans ?_
  rw [State.arrive_passes wd hpasses]
  rfl

/-- The event of a write that passes its checks. -/
theorem execAccessArrival_write (hready : (s.port p).ready) (t : Time) {addr : BitVec 17} {size : BitVec 2} (wd : BitVec 32)
    (hpasses : s.passes true addr size) : exec (.accessArrival t p true addr size wd) s =
      .next (((s.accepting t p (s.arrival t true addr size wd)).writePath p (s.arrival t true addr size wd)).finish) := by
  refine (execAccessArrival_ready hready t true addr size wd).trans ?_
  rw [State.arrive_passes wd hpasses]
  rfl

/-- Settles O24: the slot found answers, and only a CLEAN one moves. -/
theorem readHitAnswersFromImage : Obligations.ReadHitAnswersFromImage := by
  intro t p addr size wd s i hready hpasses hcarrier hcovers hfields acc
  obtain ⟨-, hsize, halign, -, -⟩ := id hpasses
  obtain ⟨-, -, hdeadlines⟩ := hfields
  rw [execAccessArrival_read hready t wd hpasses, State.readPath_hit (i := i) (State.accepting_soleCarrier hcarrier)
    (by rw [State.accepting_slot]; exact (Slot.covers_iff hsize halign _).2 hcovers) (by rw [State.accepting_slot]; exact hdeadlines),
    State.accepting_slot, State.accepting_port]
  cases p <;> rfl

/-! ### Writes -/

theorem State.writePath_carried (hcarrier : s.soleCarrier i acc.page) :
    s.writePath p acc = (s.merge i acc).setPort p (s.okTo p) := by
  unfold State.writePath State.writable
  rw [State.lookup_of_soleCarrier hcarrier, Option.isSome_some, Bool.true_or, if_pos rfl]
  exact State.writeInto_carried hcarrier

/-- The answer to a write just taken. -/
theorem State.accepting_okTo (s : State) (t : Time) (p : PortId) (acc : Access) : (s.accepting t p acc).okTo p =
    (s.port p).requested.answering (max s.now t) .none 0 (s.port p).lastError := by
  rw [State.okTo, State.accepting_port, State.accepting_now]
  rfl

/-- Settles O25: the merge by the slot's state. -/
theorem writeJoinsUndurableSlot : Obligations.WriteJoinsUndurableSlot := by
  intro t p addr size wd s i hready hpasses hcarrier acc x m ok answer
  have hanswer : answer = .next (State.finish (((s.accepting t p acc).merge i acc).setPort p ok)) := by
    rw [show ok = (s.accepting t p acc).okTo p from (State.accepting_okTo s t p acc).symm, ← State.writePath_carried (i := i) (State.accepting_soleCarrier hcarrier)]
    exact execAccessArrival_write hready t wd hpasses
  refine ⟨fun hs => hanswer.trans ?_, fun hs hnot => hanswer.trans ?_, fun hs hage hworks hfull => hanswer.trans ?_⟩
  · rw [State.merge_undurable (by rw [State.accepting_slot]; exact hs), State.accepting_slot, State.accepting_now, State.accepting,
      State.setSlot_setPort, State.setPort_setPort]
  · rw [State.merge_dirty_stays (by rw [State.accepting_slot]; exact hs)
      (by rw [State.accepting_slot, State.accepting_now, State.works, State.accepting_store]; exact hnot),
      State.accepting_slot, State.accepting_now, State.accepting_params, State.accepting, State.setSlot_setPort, State.setPort_setPort]
    rfl
  · rw [State.merge_dirty_full (State.accepting_holds hage) (by rw [State.accepting_slot]; exact hs)
      (by rw [State.works, State.accepting_store]; exact hworks)
      (by rw [State.accepting_slot, State.accepting_now]; exact hfull)]
    dsimp only
    rw [State.accepting_slot, State.accepting_now, State.accepting_params, State.accepting, State.setSlot_setPort,
      State.sealedTo_setPort, State.sealsFor_setPort, State.setPort_setPort]
    rfl

/-- Settles O26: a CLEAN slot becomes DIRTY by the merge. -/
theorem writeMakesCleanSlotDirty : Obligations.WriteMakesCleanSlotDirty := by
  intro t p addr size wd s i hready hpasses hcarrier hclean hfields hsets hage acc b x m n
  obtain ⟨-, -, hdeadlines⟩ := hfields
  obtain ⟨-, -, hdirty, -⟩ := hsets
  rw [execAccessArrival_write hready t wd hpasses, State.writePath_carried (i := i) (State.accepting_soleCarrier hcarrier),
    State.accepting_okTo, State.merge_clean (by rw [State.accepting_slot]; exact hclean)
      (by rw [State.accepting_slot]; exact hdeadlines (by rw [hclean]; nofun)) (by rw [State.accepting_slot]; exact hdirty hclean)
      (State.accepting_holds hage)]
  dsimp only
  have hstate : ({ s.accepting t p acc with
      recency := (s.accepting t p acc).recency.erase i
      slots := (s.accepting t p acc).slots.set i.val ((s.accepting t p acc).mergedClean ((s.accepting t p acc).slot i) acc) } :
      State) = m.setPort p ((s.port p).holding acc) := by cases p <;> rfl
  rw [hstate, State.enterAgeList_setPort, State.sealedTo_setPort, State.overflow_setPort, State.setPort_setPort]

/-- Settles O27: the slot that the allocation rule names takes exactly the write's bytes. -/
theorem writeTakesNewSlot : Obligations.WriteTakesNewSlot := by
  intro t p addr size wd s i hready hpasses hpage htakes hcoll acc b m n
  have htakes' : (s.accepting t p acc).takes i := State.accepting_takes htakes
  rw [execAccessArrival_write hready t wd hpasses]
  unfold State.writePath State.writable
  rw [State.allocatable_of_takes htakes', Option.isSome_some, Bool.or_true, if_pos rfl,
    State.writeInto_uncarried (State.accepting_uncarried hpage) (State.accepting_collectionsOk hcoll) htakes', State.accepting_okTo]
  dsimp only
  have hstate : ({ s.accepting t p acc with
      freeList := (s.accepting t p acc).freeList.erase i, recency := (s.accepting t p acc).recency.erase i
      slots := (s.accepting t p acc).slots.set i.val ((s.accepting t p acc).freshlyWritten ((s.accepting t p acc).slot i) acc) } :
      State) = m.setPort p ((s.port p).holding acc) := by cases p <;> rfl
  rw [hstate, State.enterAgeList_setPort, State.sealedTo_setPort, State.overflow_setPort, State.setPort_setPort]

/-! ### Accesses that find no slot or no array -/

/-- The array cannot be read for the host, and why. -/
theorem State.arrayUnavailable_some (h : ¬s.readable) : s.arrayUnavailable =
    some (if decide (s.store.state = .quiesced) then .quiesced else .arrayTimeout) := by
  unfold State.readable at h
  unfold State.arrayUnavailable
  cases hs : s.store.state <;> simp_all

theorem State.arrayUnavailable_none (h : s.readable) : s.arrayUnavailable = none := by
  unfold State.readable at h
  unfold State.arrayUnavailable
  cases hs : s.store.state <;> simp_all

/-- A port that enters a wait with its access: the stall deadline counts from the arrival (R39). -/
theorem State.enterWait_eq (hstall : (s.port p).stall = none) (acc : Access) (st : PortState) (w : Option SlotIx) :
    s.enterWait p acc st w = s.setPort p
      { s.port p with state := st, waited := w, stall := some (acc.arrival + s.params.stall * Config.stallUnit) } := by
  unfold State.enterWait State.modPort
  dsimp only
  rw [hstall]

/-- An error response to an access just taken. -/
theorem State.accepting_answerError (s : State) (t : Time) (p : PortId) (acc : Access) (reason : Reason) (detail : Detail) :
    (s.accepting t p acc).answerError p reason detail =
      (s.taken t).setPort p ((s.port p).requested.refusing (max s.now t) acc reason detail) := by
  rw [State.answerError_refusing (acc := acc) _ detail (by rw [State.accepting_port]; rfl), State.accepting_setPort,
    State.accepting_port, State.accepting_now]
  rfl

/-- Settles O28: with nowhere to go a write waits, or in QUIESCED is refused; a read without the array is refused. -/
theorem accessWithNoSlotOrNoArray : Obligations.AccessWithNoSlotOrNoArray := by
  intro t p wr addr size wd s i hready hfields hpasses acc quiesced refused ends
  obtain ⟨hidle, -, -⟩ := id hready
  obtain ⟨-, hstall, -⟩ := hfields
  refine ⟨fun hw hpage hnone => ?_, fun hw hreadable hmiss => ?_⟩
  · subst hw
    have hno : (s.accepting t p acc).writable acc.page = false := by
      unfold State.writable
      rw [(State.lookup_none_iff _ _).2 (State.accepting_uncarried hpage),
        (State.allocatable_none_iff _).2 (State.accepting_noneAllocatable hnone)]
      rfl
    rw [execAccessArrival_write hready t wd hpasses]
    unfold State.writePath
    rw [if_neg (by rw [hno]; nofun), State.accepting_store]
    by_cases hq : s.store.state = .quiesced
    · rw [if_pos hq, State.accepting_answerError, if_pos (by exact decide_eq_true hq)]
    · rw [if_neg hq, if_neg (by simpa [quiesced] using hq),
        State.enterWait_eq (by rw [State.accepting_port]; exact hstall.2 hidle), State.accepting_setPort, State.accepting_port,
        State.accepting_params]
      rfl
  · subst hw
    have hmissed : ∀ found, (s.accepting t p acc).readMiss p acc found =
        (s.taken t).setPort p (refused .arrayUnavailable (if quiesced then .quiesced else .arrayTimeout)) := fun found => by
      have hun : (s.accepting t p acc).arrayUnavailable = some (if quiesced then .quiesced else .arrayTimeout) := by
        have hs := State.arrayUnavailable_some hreadable
        cases p <;> exact hs
      unfold State.readMiss
      rw [hun]
      exact State.accepting_answerError s t p acc _ _
    obtain ⟨-, hsize, halign, -, -⟩ := id hpasses
    rw [execAccessArrival_read hready t wd hpasses]
    rcases hmiss with hpage | ⟨hcarrier, hcovers⟩
    · rw [State.readPath_uncarried (State.accepting_uncarried hpage), hmissed]
    · rw [State.readPath_missing (i := i) (State.accepting_soleCarrier hcarrier), hmissed]
      rw [State.accepting_slot]
      exact fun hsub => hcovers ((Slot.covers_iff hsize halign _).1 hsub)

/-! ### Reads that wait for the array -/

/-- One fill request for every byte not present, or the one pending joined (R16, R31). -/
theorem State.requestFill_eq (s : State) (i : SlotIx) : s.requestFill i =
    { s with requests := if (s.slot i).fillPending = none then s.requests ++ [.fill i] else s.requests
             slots := s.slots.set i.val
               { s.slot i with fillPending := some ((s.slot i).fillPending.getD (~~~(s.slot i).present)) } } := by
  unfold State.requestFill
  cases hf : (s.slot i).fillPending with
  | none => rfl
  | some w =>
    have hsame : { s.slot i with fillPending := some w } = s.slot i := by
      cases hx : s.slot i
      rw [hx] at hf
      simp_all
    rw [if_neg nofun, Option.getD_some, hsame]
    exact (State.setSlot_slot s i).symm

/-- The wait of a port on a slot, its stall deadline taken from the arrival or kept. -/
theorem State.waitOnSlot_stall {d : Time} (hstall : (s.port p).stall.getD (acc.arrival + s.params.stall * Config.stallUnit) = d) (i : SlotIx) :
    s.waitOnSlot i p acc = State.setPort
      { s with requests := if (s.slot i).fillPending = none then s.requests ++ [.fill i] else s.requests
               slots := s.slots.set i.val (Slot.setWait
                 { s.slot i with fillPending := some ((s.slot i).fillPending.getD (~~~(s.slot i).present)) } p (some acc.offsets)) } p
      { s.port p with state := .waitFill, waited := some i, stall := some d } := by
  have henter : ∀ m : State, m.port p = s.port p → m.params = s.params → m.enterWait p acc .waitFill (some i) =
      m.setPort p { s.port p with state := .waitFill, waited := some i, stall := some d } := fun m hport hparams => by
    unfold State.enterWait State.modPort
    dsimp only
    rw [hport, hparams, ← hstall]
    cases (s.port p).stall <;> rfl
  unfold State.waitOnSlot
  rw [State.requestFill_eq, henter]
  · cases p <;> simp [State.modSlot, State.setSlot, State.slot, State.setPort, Vector.set_set]
  · cases p <;> rfl
  · rfl

theorem State.waitOnSlot_eq (hstall : (s.port p).stall = none) (i : SlotIx) (acc : Access) :
    s.waitOnSlot i p acc = State.setPort
      { s with requests := if (s.slot i).fillPending = none then s.requests ++ [.fill i] else s.requests
               slots := s.slots.set i.val (Slot.setWait
                 { s.slot i with fillPending := some ((s.slot i).fillPending.getD (~~~(s.slot i).present)) } p (some acc.offsets)) } p
      { s.port p with state := .waitFill, waited := some i, stall := some (acc.arrival + s.params.stall * Config.stallUnit) } :=
  State.waitOnSlot_stall (by rw [hstall]; rfl) i

/-- A port that waited already keeps its stall deadline (R39). -/
theorem State.waitOnSlot_again (hstall : (s.port p).stall ≠ none) (i : SlotIx) (acc : Access) :
    s.waitOnSlot i p acc = State.setPort
      { s with requests := if (s.slot i).fillPending = none then s.requests ++ [.fill i] else s.requests
               slots := s.slots.set i.val (Slot.setWait
                 { s.slot i with fillPending := some ((s.slot i).fillPending.getD (~~~(s.slot i).present)) } p (some acc.offsets)) } p
      { s.port p with state := .waitFill, waited := some i } := by
  obtain ⟨d, hd⟩ := Option.ne_none_iff_exists'.1 hstall
  rw [State.waitOnSlot_stall (d := d) (by rw [hd]; rfl), ← hd]

/-- Settles O29: the slot that carries the page, else the slot allocated, else a bypass read. -/
theorem readMissWaitsForTheArray : Obligations.ReadMissWaitsForTheArray := by
  intro t p addr size wd s i hready hfields hpasses hreadable acc b stall
  obtain ⟨hidle, -, -⟩ := id hready
  obtain ⟨-, hstall, -⟩ := hfields
  obtain ⟨-, hsize, halign, -, -⟩ := id hpasses
  have hnone : (s.accepting t p acc).arrayUnavailable = none := by
    have hs := State.arrayUnavailable_none hreadable
    cases p <;> exact hs
  have hstall' : ((s.accepting t p acc).port p).stall = none := by rw [State.accepting_port]; exact hstall.2 hidle
  rw [execAccessArrival_read hready t wd hpasses]
  refine ⟨fun hcarrier hcovers => ?_, fun hpage htakes hcoll => ?_, fun hpage hno => ?_⟩
  · rw [State.readPath_missing (i := i) (State.accepting_soleCarrier hcarrier)]
    · unfold State.readMiss
      rw [hnone]
      dsimp only
      rw [State.waitOnSlot_eq hstall']
      cases p <;> rfl
    · rw [State.accepting_slot]
      exact fun hsub => hcovers ((Slot.covers_iff hsize halign _).1 hsub)
  · have htakes' : (s.accepting t p acc).takes i := State.accepting_takes htakes
    rw [State.readPath_uncarried (State.accepting_uncarried hpage)]
    unfold State.readMiss
    rw [hnone, State.allocatable_of_takes htakes']
    dsimp only
    have hport : ∀ q, ((s.accepting t p acc).allocate i acc.page).port q = (s.accepting t p acc).port q := fun q =>
      (State.allocate_frame _ i acc.page).port q
    rw [State.waitOnSlot_eq (by rw [hport]; exact hstall'), hport, State.slot_allocate_same,
      State.allocate_eq (State.accepting_collectionsOk hcoll) htakes', if_pos (by rfl), State.accepting_port]
    have hfull : ~~~(0 : OffsetSet) = fullSet := by decide
    simp only [Vector.set_set, Slot.emptied, Option.getD_none, hfull]
    cases p <;> rfl
  · rw [State.readPath_uncarried (State.accepting_uncarried hpage)]
    unfold State.readMiss
    rw [hnone, (State.allocatable_none_iff _).2 (State.accepting_noneAllocatable hno)]
    dsimp only
    rw [State.enterWait_eq (by cases p <;> exact hstall')]
    cases p <;> rfl

end Sys2Proof.Machine

/-! PROOF. Seals told by an event (R51 to R58), page loads, polls and the bytes that programming stores (R70 to R73, R86 to R88). -/

namespace Sys2Proof.Machine

variable {s u : State} {i : SlotIx} {p : PortId} {acc : Access}

/-! ### Deadlines that have come -/

theorem State.due_iff (s : State) (d : Option Time) : s.due d = true ↔ d ≠ none ∧ d.getD 0 ≤ s.now := by
  unfold State.due
  cases d <;> simp

/-- Settles O34: the seal of the slot named, whichever of its deadlines has come. -/
theorem deadlineExpirySealsTheSlot : Obligations.DeadlineExpirySealsTheSlot := by
  intro t i s hdirty hage b sealing
  have hseal : (s.tick t).sealNamed i = b.sealedTo (s.sealsFor i) := State.sealNamed_eq (s.tick t) hage hdirty
  have hevent : ∀ d, Host.Outcome.next (if (s.tick t).due d then ((s.tick t).sealNamed i).finish else s.tick t) = sealing d := fun d => by
    rw [hseal]
    exact congrArg Host.Outcome.next (ite_of_iff (State.due_iff _ d) rfl rfl)
  exact ⟨hevent _, hevent _⟩

/-! ### Commands that pass every check -/

/-- A command that no check refuses takes its effect at the event's moment, and the event ends with the grant rule. -/
theorem exec_commandRow_passes (t : Time) {code : Byte} {args : List Byte} {s : State} (hreset : s.resetN = true)
    (hkept : args.length ≤ 3) (hpasses : s.refusal code args false = none) :
    exec (commandRow t code args) s = .next (((s.tick t).effect code args).finish) := by
  have hticked : (s.tick t).refusal code args false = none := hpasses
  rw [exec_commandRow, State.commandEvent, State.tick_resetN, if_pos hreset, State.runCommand, List.take_of_length_le hkept,
    decide_eq_false (Nat.not_lt.mpr hkept), hticked]

/-- The checks that a command passes: its arguments, no long command in its way, and a store state that takes it. -/
theorem State.refusal_none_of (s : State) {code : Byte} (args : List Byte) (hknown : 1 ≤ code.toNat ∧ code.toNat ≤ 14)
    (hcount : args.length = argumentsOf code) (hlong : ¬s.refusesLong code) (harg : ¬argumentRefused code (args.headD 0))
    (hstate : ¬s.stateRefuses code (args.headD 0))
    (hvalue : code = 3 → ¬valueRefused (args.headD 0) ((args.getD 1 0).toNat + 256 * (args.getD 2 0).toNat)) :
    s.refusal code args false = none := by
  rw [State.refusal_known s args hknown, if_neg (Classical.not_not.2 hcount), if_neg hlong, if_neg harg, if_neg hstate,
    if_neg fun h => hvalue h.1 h.2]

/-! ### Flushes and PFW -/

/-- A port whose write waits for a slot is answered with an error response (R38). -/
def HostPort.writeRefused (h : HostPort) (now : Time) (reason : Reason) (detail : Detail) : HostPort :=
  match h.state, h.access with
  | .waitSlot, some acc => h.refusing now acc reason detail
  | _, _ => h

theorem HostPort.writeRefused_other (h : HostPort) (now : Time) (reason : Reason) (detail : Detail) (hs : h.state ≠ .waitSlot) :
    h.writeRefused now reason detail = h := by
  unfold HostPort.writeRefused
  split
  · exact absurd ‹_› hs
  · rfl

theorem State.refuseWrite_eq (s : State) (reason : Reason) (detail : Detail) (p : PortId) (h : (s.port p).fieldsOk) :
    State.refuseWrite reason detail s p = s.setPort p ((s.port p).writeRefused s.now reason detail) := by
  unfold State.refuseWrite
  split
  · rename_i hwait
    obtain ⟨haccess, -, -⟩ := h
    obtain ⟨acc, hacc⟩ := Option.ne_none_iff_exists'.1 fun hn => by simp [haccess.1 hn] at hwait
    rw [State.answerError_refusing _ detail hacc, HostPort.writeRefused, hwait, hacc]
  · rw [HostPort.writeRefused_other _ _ _ _ ‹_›, State.setPort_port]

/-- Both ports' waiting writes refused. -/
theorem State.refuseWrites_eq (s : State) (reason : Reason) (detail : Detail) (hA : s.portA.fieldsOk) (hB : s.portB.fieldsOk) :
    s.refuseWrites reason detail =
      { s with portA := s.portA.writeRefused s.now reason detail, portB := s.portB.writeRefused s.now reason detail } := by
  unfold State.refuseWrites
  rw [List.foldl_cons, List.foldl_cons, List.foldl_nil, State.refuseWrite_eq s reason detail .a hA]
  exact State.refuseWrite_eq _ reason detail .b hB

/-- Settles O35: every flush is the seal of the age list, in age order. -/
theorem flushesAndPowerFailSealEveryDirtySlot : Obligations.FlushesAndPowerFailSealEveryDirtySlot := by
  intro t s hreset hage hA hB b refused
  have hrefused : ∀ h : HostPort, refused h = h.writeRefused (max s.now t) .writeRefused .powerFail := fun h => by
    show (match h.state, h.access with | _, _ => _) = _
    rfl
  have hseal : b.sealAll = b.sealedTo s.ageList := State.sealAll_eq b hage
  refine ⟨fun hlow => ?_, fun hhigh => ?_, ?_, ?_, ?_, fun hlow => ?_, fun hhigh => ?_, ?_, ?_⟩
  · have hevent : ((s.tick t).resetN && !(s.tick t).flushSeen) = true := by simp [hreset, hlow]
    refine congrArg Host.Outcome.next ((if_pos hevent).trans (congrArg State.finish ?_))
    exact State.sealAll_eq { s.tick t with flushSeen := true } hage
  · have hevent : ¬((s.tick t).resetN && !(s.tick t).flushSeen) = true := by simp [hreset, hhigh]
    exact congrArg Host.Outcome.next (if_neg hevent)
  · exact congrArg Host.Outcome.next (if_pos hreset)
  · have hpasses : s.refusal 0x04 [] false = none := State.refusal_none_of s [] (by decide) rfl
      (fun h => by simp [State.refusesLong] at h) (by decide) (by simp [State.stateRefuses]) (by simp)
    refine (exec_commandRow_passes (code := 0x04) (args := []) t hreset (Nat.zero_le 3) hpasses).trans ?_
    show Host.Outcome.next (State.finish (State.respond (State.sealAll b) _ _ _)) = _
    rw [hseal]
    rfl
  · refine congrArg Host.Outcome.next ((if_pos hreset).trans (congrArg State.finish hseal))
  · have hevent : ((s.tick t).resetN && !(s.tick t).pfw) = true := by simp [hreset, hlow]
    refine congrArg Host.Outcome.next ((if_pos hevent).trans (congrArg State.finish ?_))
    have hseal' : State.sealAll { s.tick t with pfw := true } = State.sealedTo { b with pfw := true } s.ageList :=
      State.sealAll_eq { s.tick t with pfw := true } hage
    refine (congrArg (fun m => State.refuseWrites m .writeRefused .powerFail) hseal').trans ?_
    refine (State.refuseWrites_eq _ _ _ (by exact hA) (by exact hB)).trans ?_
    rw [hrefused, hrefused]
    rfl
  · have hevent : ¬((s.tick t).resetN && !(s.tick t).pfw) = true := by simp [hreset, hhigh]
    exact congrArg Host.Outcome.next (if_neg hevent)
  · exact congrArg Host.Outcome.next (if_pos hreset)
  · exact List.filter_eq_nil_iff.2 fun i hi => by simpa using hi

/-! ### The array -/

/-- The byte at a latched address, when each is latched once and the bytes are in form. -/
theorem Memory.read_writeLatch {l : List Host.Cell} {page k : Nat} {v : Byte} {latch : List (Nat × Byte)} (hwf : Memory.wf l = true)
    (hnodup : (latch.map Prod.fst).Nodup) (hmem : (k, v) ∈ latch) :
    Memory.read (Memory.writeLatch l page latch) (arrayAddress page k) = v := by
  induction latch generalizing l with
  | nil => cases hmem
  | cons e rest ih =>
    obtain ⟨hnot, hrest⟩ := List.nodup_cons.1 hnodup
    rw [Memory.writeLatch]
    rcases List.mem_cons.1 hmem with rfl | hmem
    · rw [Memory.read_writeLatch_other, Memory.read_write_same _ _ hwf]
      intro d hd heq
      refine hnot (List.mem_map.2 ⟨d, hd, ?_⟩)
      unfold arrayAddress at heq
      omega
    · exact ih (Memory.write_wf _ _ hwf) hrest hmem

/-- Settles O38: the address of a latched offset is its own alone, for offsets below 64. -/
theorem arrayStoresLatchedBytes : Obligations.ArrayStoresLatchedBytes := by
  intro c k v page off hwf hnodup hbelow hoff
  refine ⟨fun hmem => Memory.read_writeLatch hwf hnodup hmem, fun hother => Memory.read_writeLatch_other fun e he heq => ?_,
    ⟨rfl, rfl⟩, fun hprog => if_pos hprog, fun hprog => if_neg (by rw [hprog]; nofun)⟩
  have helow := hbelow e he
  unfold arrayAddress at heq
  have hpage : page = c.latchPage := by omega
  have hsame : e.1 = off := by omega
  exact hother.elim (fun h => h hpage) fun h => h (hsame ▸ List.mem_map_of_mem he)

/-! ### The attempt under way -/

/-- The attempt under way: the map writer's, or the commit's on its target page (R67, R130). -/
def State.hasAttempt (s : State) (c : CommitRecord) (a : Attempt) : Prop :=
  s.writer.map MapWriter.attempt = some a ∧ (s.commit ≠ none ∨ s.owner = .mapWriter) ∨
    s.writer = none ∧ s.commit = some c ∧ c.attempt = a ∧ (c.phase = .home ∨ c.phase = .spareLoad)

theorem State.attempt_of_hasAttempt {c : CommitRecord} {a : Attempt} (h : s.hasAttempt c a) : s.attempt = some a := by
  unfold State.attempt
  rcases h with ⟨hw, hholds⟩ | ⟨hw, hc, ha, hphase⟩
  · obtain ⟨w, hwriter, rfl⟩ := Option.map_eq_some_iff.1 hw
    rw [hwriter]
    cases hc : s.commit with
    | some c => rfl
    | none =>
      rcases hholds with hno | howner
      · exact absurd hc hno
      · exact if_pos howner
  · rw [hw, hc]
    dsimp only
    rcases hphase with hp | hp <;> rw [hp] <;> exact congrArg some ha

/-- The state with the attempt under way replaced, in the statements' words. -/
def State.putAttempt (s : State) (w : Option MapWriter) (c : CommitRecord) (a : Attempt) : State :=
  match w with
  | some w => { s with writer := some { w with attempt := a } }
  | none => { s with commit := some { c with attempt := a } }

/-- The attempt replaced, and condition and array set, in either order. -/
theorem State.putAttempt_with (s : State) (w : Option MapWriter) (c : CommitRecord) (a : Attempt) (cond : Condition) (chip : Chip) :
    { s.putAttempt w c a with condition := cond, chip := chip } = ({ s with condition := cond, chip := chip } : State).putAttempt w c a := by
  cases w <;> rfl

theorem State.putAttempt_condition (s : State) (w : Option MapWriter) (c : CommitRecord) (a : Attempt) (cond : Condition) :
    { s.putAttempt w c a with condition := cond } = ({ s with condition := cond } : State).putAttempt w c a := by
  cases w <;> rfl

theorem State.setAttempt_eq {c : CommitRecord} (h : s.writer ≠ none ∨ s.commit = some c) (a : Attempt) :
    s.setAttempt a = s.putAttempt s.writer c a := by
  unfold State.setAttempt State.putAttempt
  cases hw : s.writer with
  | some w => rfl
  | none =>
    rcases h with h | h
    · exact absurd hw h
    · rw [h]

theorem State.setAttempt_of_hasAttempt {c : CommitRecord} {a : Attempt} (h : s.hasAttempt c a) (a' : Attempt) :
    s.setAttempt a' = s.putAttempt s.writer c a' := by
  refine State.setAttempt_eq ?_ a'
  rcases h with ⟨hw, -⟩ | ⟨-, hc, -⟩
  · exact .inl fun hn => by rw [hn] at hw; cases hw
  · exact .inr hc

theorem State.attemptIn_eq {a : Attempt} {step : AttemptStep} (h : s.attempt = some a) (hstep : a.step = step) :
    s.attemptIn step = some a := by
  unfold State.attemptIn
  rw [h]
  exact if_pos hstep

theorem Chip.load_programming {c : Chip} (h : c.programming = true) (now : Time) (page off : Nat) (b : Byte) :
    c.load now page off b = c := by
  unfold Chip.load
  rw [if_pos h]

/-- A load within the lapse, or into an empty latch, is latched (R87, R88). -/
theorem Chip.load_latches {c : Chip} {now : Time} (h : c.programming = false)
    (hopen : c.latch = [] ∨ now < c.loadedAt + Config.latchLapseMin) (page off : Nat) (b : Byte) : c.load now page off b =
      { c with latch := c.latch.filter (fun e => e.1 ≠ off) ++ [(off, b)], latchPage := page, lastByte := b, loadedAt := now } := by
  have hlapsed : c.lapsed now = false := by
    unfold Chip.lapsed
    rcases hopen with hl | hl
    · rw [hl]
      rfl
    · rw [if_pos hl]
      exact ite_self _
  unfold Chip.load
  rw [if_neg (by rw [h]; nofun), if_neg (by rw [hlapsed]; nofun)]

/-- The attempt after its next load, in the statements' words. -/
theorem Attempt.loaded_eq (a : Attempt) (k : Nat) (rest : List Nat) : a.loaded k rest =
    { a with toLoad := rest, failing := none
             pollByte := if rest = [] then some (k, Page.byte a.bytes k) else a.pollByte, step := if rest = [] then .lapse else .load } := by
  unfold Attempt.loaded
  cases rest <;> rfl

/-- Settles O36: the load issued is the next of the attempt under way. -/
theorem pageLoadLatchesNextByte : Obligations.PageLoadLatchesNextByte := by
  intro t s c a k rest hattempt hstep hload b put v a' loaded
  have hunder : (s.tick t).hasAttempt c a := hattempt
  have hput : ∀ m a', put m a' = m.putAttempt s.writer c a' := fun m a' => by
    show (match s.writer with | some w => _ | none => _) = _
    cases s.writer <;> rfl
  have hissue : exec (.pageLoad t) s = .next b.issueLoad := by
    show Host.Outcome.next (match (s.tick t).attemptIn .load with | some _ => _ | none => _) = _
    rw [State.attemptIn_eq (State.attempt_of_hasAttempt hunder) hstep]
    rfl
  have hloaded : b.issueLoad = loaded (s.chip.load (max s.now t) a.target k v) := by
    unfold State.issueLoad
    rw [show b.attempt = some a from State.attempt_of_hasAttempt hunder]
    dsimp only
    rw [hload]
    dsimp only
    rw [State.setAttempt_of_hasAttempt (s := b) hunder, Attempt.loaded_eq]
    show _ = put _ a'
    rw [hput]
    unfold State.putAttempt
    cases s.writer <;> rfl
  refine ⟨fun hprog hopen => ?_, fun hprog => ?_, hissue⟩
  · rw [hissue, hloaded, Chip.load_latches hprog hopen]
  · rw [hissue, hloaded, Chip.load_programming hprog]

/-- The array with programming ended when it must have, in the statements' words. -/
theorem State.pollArray_eq (s : State) (ended : Bool) (worn : List Host.Cell) : s.pollArray ended worn =
    State.observe { s with chip := if ended = true ∨
      s.chip.latch ≠ [] ∧ s.chip.loadedAt + Config.latchLapseMax + Config.programMax ≤ s.now then s.chip.finish else s.chip } worn := by
  unfold State.pollArray Chip.advance
  cases ended with
  | false =>
    have hcond : (!s.chip.latch.isEmpty && decide (s.chip.loadedAt + Config.latchLapseMax + Config.programMax ≤ s.now)) = true ↔
        false = true ∨ s.chip.latch ≠ [] ∧ s.chip.loadedAt + Config.latchLapseMax + Config.programMax ≤ s.now := by
      cases s.chip.latch <;> simp
    refine congrArg (fun chip => State.observe { s with chip } worn) ((if_neg (by nofun)).trans (ite_of_iff hcond rfl rfl))
  | true =>
    exact congrArg (fun chip => State.observe { s with chip } worn) ((if_pos rfl).trans (if_pos (Or.inl rfl)).symm)

/-- Settles O37: the poll begins when the lapse is over, and ends at the first byte read that is not the inverted one. -/
theorem lapseAndPollOfAnAttempt : Obligations.LapseAndPollOfAnAttempt := by
  intro t s c a l ended worn k v hattempt b put finished n
  have hunder : (s.tick t).hasAttempt c a := hattempt
  have hput : ∀ m a', put m a' = m.putAttempt s.writer c a' := fun m a' => by
    show (match s.writer with | some w => _ | none => _) = _
    cases s.writer <;> rfl
  refine ⟨fun hstep hlast => ?_, fun hstep hbyte => ?_⟩
  · show Host.Outcome.next (match (s.tick t).attemptIn .lapse with | some a => _ | none => _) = _
    rw [State.attemptIn_eq (State.attempt_of_hasAttempt hunder) hstep]
    have hpassed : (s.tick t).lapsePassed = true ↔ l + Config.lapse ≤ max s.now t := by
      unfold State.lapsePassed
      rw [show (s.tick t).lastLoad = some l from hlast]
      exact State.due_some_iff _ _
    have hbegin : s.chip.begin = { s.chip with programming := if s.chip.latch = [] then s.chip.programming else true } := by
      unfold Chip.begin
      cases s.chip with
      | mk cells latch page byte loaded prog => cases latch <;> rfl
    refine congrArg Host.Outcome.next (ite_of_iff hpassed ?_ rfl)
    rw [State.setAttempt_of_hasAttempt hunder, hput]
    refine (State.putAttempt_with (s.tick t) s.writer c _ .programming s.chip.begin).trans ?_
    rw [hbegin]
    rfl
  · show Host.Outcome.next (match (s.tick t).attemptIn .poll with | some a => _ | none => _) = _
    rw [State.attemptIn_eq (State.attempt_of_hasAttempt hunder) hstep]
    dsimp only
    rw [hbyte]
    dsimp only
    have harray : (s.tick t).pollArray ended worn = n := State.pollArray_eq _ ended worn
    rw [harray]
    have hunder' : n.hasAttempt c a := hattempt
    refine congrArg Host.Outcome.next (ite_of_iff Iff.rfl rfl ?_)
    rw [State.setAttempt_of_hasAttempt hunder', hput]
    exact State.putAttempt_condition n s.writer c { a with step := .verify, pollByte := none, pollDeadline := none } .idle

end Sys2Proof.Machine

/-! PROOF. Pin reset (R157) and the commands and bus conditions that end a write (R168 to R181). -/

namespace Sys2Proof.Machine

variable {s u : State} {i : SlotIx} {p : PortId} {acc : Access}

/-! ### RESET_N -/

theorem State.quietMoment_eq (s : State) : s.quietMoment = max s.now ((s.lastLoad.map fun l => l + Config.lapse).getD 0) := by
  unfold State.quietMoment
  cases s.lastLoad
  · exact (Nat.max_eq_left (Nat.zero_le _)).symm
  · rfl

/-- Settles O48: the fall names every field, and the flags are read off the values it leaves. -/
theorem pinResetFall : Obligations.PinResetFall := by
  intro t s hreset cleared port v
  have hport : ∀ h : HostPort, h.pinReset (max s.now t) = port h := fun h => by
    unfold HostPort.pinReset
    by_cases hwaits : h.state ≠ .idle
    · rw [if_pos hwaits, HostPort.present_eq]
      exact (if_pos hwaits).symm
    · rw [if_neg hwaits]
      exact (if_neg hwaits).symm
  have hquiet : (s.tick t).quietMoment = max (max s.now t) ((s.lastLoad.map fun l => l + Config.lapse).getD 0) :=
    State.quietMoment_eq _
  refine ⟨?_, rfl, rfl, rfl, rfl, rfl⟩
  show Host.Outcome.next (if (s.tick t).resetN = true then _ else _) = _
  rw [if_pos (by exact hreset), hquiet]
  show Host.Outcome.next _ = Host.Outcome.next v
  simp only [State.tick_portA, State.tick_portB, State.tick_now, hport]
  rfl

theorem State.tryHold_eq (s : State) : s.tryHold =
    if s.resetN = true ∧ s.store.state = .starting ∧ s.store.phase = some .quietWait ∧ s.store.quiet ≤ s.now ∧ s.reading = none
    then { s with store := { s.store with phase := some .hold, holdDeadline := some (s.now + Config.hold) } } else s := by
  refine ite_of_iff ?_ rfl rfl
  rw [Bool.and_eq_true, State.holdReady_iff, Option.isNone_iff_eq_none]
  simp only [and_assoc]

/-- Settles O49: the rise names every field it samples, and the hold begins when the quiet moment has come. -/
theorem pinResetRise : Obligations.PinResetRise := by
  intro t acap addr flush pfw s hstarting hphase hreading rise u
  refine ⟨fun hlow => ?_, fun hhigh => ?_, rfl, rfl, fun hcond => ?_⟩
  · show Host.Outcome.next (if (s.tick t).resetN = true then _ else _) = _
    rw [if_neg (by rw [State.tick_resetN, hlow]; exact Bool.false_ne_true)]
    have hhold : u.tryHold = if s.store.quiet ≤ max s.now t then
        { u with store := { s.store with phase := some .hold, holdDeadline := some (max s.now t + Config.hold) } } else u :=
      (State.tryHold_eq u).trans (ite_of_iff ⟨fun h => h.2.2.2.1, fun h => ⟨rfl, hstarting, hphase, h, hreading⟩⟩ rfl rfl)
    exact congrArg Host.Outcome.next hhold
  · exact congrArg Host.Outcome.next (if_pos hhigh)
  · show (!(true && decide (s.condition = .loading))) = true
    rw [decide_eq_false hcond]
    rfl

/-! ### The records that reading commands return -/

theorem le16_eq (v : BitVec 16) : le16 v = [BitVec.ofNat 8 v.toNat, BitVec.ofNat 8 (v.toNat / 256)] := by
  have h := pageField_eq (some v.toNat)
  rwa [pageField, BitVec.ofNat_toNat, BitVec.setWidth_eq] at h

theorem allSlots_eq : allSlots = List.finRange 32 := by decide

theorem State.slotCount_eq (s : State) (st : SlotState) :
    s.slotCount st = (List.finRange 32).countP fun i => decide ((s.slot i).state = st) := by
  rw [State.slotCount, allSlots_eq, List.countP_eq_length_filter]

theorem setField_eq (x : OffsetSet) : setField x = (List.range 8).map fun k => (x >>> (8 * k)).setWidth 8 := by
  simp [setField, List.range_succ, ← BitVec.setWidth_ushiftRight_eq_extractLsb]

/-- Five levels in the low bits of a byte. -/
theorem levelBits_eq (a b c d e : Bool) :
    (BitVec.ofBool a).setWidth 8 ||| ((BitVec.ofBool b).setWidth 8 <<< 1) ||| ((BitVec.ofBool c).setWidth 8 <<< 2)
        ||| ((BitVec.ofBool d).setWidth 8 <<< 3) ||| ((BitVec.ofBool e).setWidth 8 <<< 4)
      = BitVec.ofNat 8 ((if a then 1 else 0) + (if b then 2 else 0) + (if c then 4 else 0) + (if d then 8 else 0)
          + (if e then 16 else 0)) := by
  decide +revert

/-- Three levels in the low bits of a byte. -/
theorem waitBits_eq (a b c : Bool) :
    (BitVec.ofBool a).setWidth 8 ||| ((BitVec.ofBool b).setWidth 8 <<< 1) ||| ((BitVec.ofBool c).setWidth 8 <<< 2)
      = (BitVec.ofNat 8 ((if a = false then 0 else 1) + (if b = false then 0 else 2) + (if c = false then 0 else 4)) : Byte) := by
  decide +revert

theorem State.anyPinned_iff (s : State) : s.anyPinned = true ↔ ∃ i : SlotIx, (s.slot i).state = .pinned := by
  simp [State.anyPinned, mem_allSlots]

theorem State.pend_iff (s : State) : s.pend = true ↔ (∃ i : SlotIx, (s.slot i).state = .pinned) ∨
    ∃ i : SlotIx, (s.slot i).state = .dirty ∨ (s.slot i).state = .sealed ∨ (s.slot i).state = .committing := by
  have hundurable : ∀ st : SlotState, st.undurable = true ↔ st = .pinned ∨ st = .dirty ∨ st = .sealed ∨ st = .committing := fun st => by
    cases st <;> decide
  simp [State.pend, mem_allSlots, hundurable, exists_or]

theorem State.alert_iff (s : State) :
    s.alert = true ↔ 0 < s.log.unread ∨ (∃ i : SlotIx, (s.slot i).state = .pinned) ∨ s.store.state = .degraded := by
  simp [State.alert, State.anyPinned_iff, or_assoc]

theorem Remap.deadCount_eq (r : Remap) : r.deadCount = (List.range 16).countP fun k => r.dead.getLsbD k :=
  (List.countP_eq_length_filter ..).symm

theorem addressField_eq (a : Option (BitVec 17)) : addressField a =
    (a.map fun (x : BitVec 17) => [(x.setWidth 8 : Byte), (x >>> 8).setWidth 8, (x >>> 16).setWidth 8]).getD [0xFF, 0xFF, 0xFF] := by
  cases a <;> rfl

theorem optionField_map {α : Type} (x : Option α) (f : α → Nat) (g : α → Byte) (h : ∀ y, BitVec.ofNat 8 (f y) = g y) :
    optionField (x.map f) = (x.map g).getD 0xFF := by
  cases x with
  | none => rfl
  | some y => exact h y

/-- A response is the result, the command byte and the payload (R172). -/
theorem State.respond_eq (s : State) (code : Byte) (result : Result) (payload : List Byte) :
    s.respond code result payload = s.responding (result.code :: code :: payload) := rfl

/-- A command that takes any argument in its set, forbidden by no store state and no long command (R174). -/
theorem State.refusal_reading (s : State) {code : Byte} (args : List Byte) (hcode : code ∈ ([1, 2, 9, 10, 11] : List Byte))
    (hcount : args.length = argumentsOf code) (harg : ¬argumentRefused code (args.headD 0)) : s.refusal code args false = none := by
  simp only [List.mem_cons, List.not_mem_nil, or_false] at hcode
  refine State.refusal_none_of s args ?_ hcount ?_ harg ?_ fun h => absurd h ?_ <;>
    rcases hcode with rfl | rfl | rfl | rfl | rfl <;> simp [State.refusesLong, State.stateRefuses]

theorem slotOf_val {a : Byte} (h : a.toNat < 32) : byteField (slotOf a).val = a := by
  have hval : (slotOf a).val = a.toNat := Nat.mod_eq_of_lt h
  rw [byteField, hval, BitVec.ofNat_toNat, BitVec.setWidth_eq]

/-- The status record byte by byte (11.3). -/
theorem State.statusPayload_eq (s : State) : s.statusPayload =
    [s.store.state.code, causeCode (if s.store.state = .degraded then s.store.cause else none),
      BitVec.ofNat 8 ((if s.pfw then 1 else 0) + (if s.pend then 2 else 0) + (if s.flushSeen then 4 else 0)
        + (if s.alert then 8 else 0) + (if s.driven then 16 else 0)),
      BitVec.ofNat 8 (s.slotCount .free), BitVec.ofNat 8 (s.slotCount .clean), BitVec.ofNat 8 (s.slotCount .dirty),
      BitVec.ofNat 8 (s.slotCount .sealed), BitVec.ofNat 8 (s.slotCount .committing), BitVec.ofNat 8 (s.slotCount .pinned),
      BitVec.ofNat 8 s.queue.length, BitVec.ofNat 8 s.remap.live.length, BitVec.ofNat 8 s.remap.deadCount,
      BitVec.ofNat 8 (16 - s.remap.live.length - s.remap.deadCount), (s.remap.copy.map fun c => BitVec.ofNat 8 c.val).getD 0xFF]
      ++ le16 (if s.remap.copy = none then 0xFFFF else s.remap.sequence.getD 0xFFFF)
      ++ [BitVec.ofNat 8 s.log.unread, BitVec.ofNat 8 s.capacity.val, s.mgmt.long.code] := by
  unfold State.statusPayload State.lineLevels
  rw [levelBits_eq, optionField_map s.remap.copy Fin.val (fun c => BitVec.ofNat 8 c.val) fun _ => rfl]
  cases s.remap.copy <;> rfl

/-- A slot descriptor byte by byte (11.4). -/
theorem State.slotPayload_eq (s : State) (i : SlotIx) : s.slotPayload i =
    [byteField i.val, (s.slot i).state.code] ++ pageField (s.slot i).page ++ setField (s.slot i).present ++ setField (s.slot i).dirty
      ++ setField ((s.slot i).fillPending.getD 0)
      ++ [BitVec.ofNat 8 ((if (s.slot i).fillPending = none then 0 else 1) + (if (s.slot i).waitA = none then 0 else 2)
        + (if (s.slot i).waitB = none then 0 else 4))] := by
  have hnone : ∀ x : Option OffsetSet, x.isSome = false ↔ x = none := fun x => by simp
  unfold State.slotPayload
  dsimp only
  rw [waitBits_eq]
  simp only [hnone]

/-- Settles O54: each record byte by byte, the counts and flags being those of the state at the event's moment. -/
theorem readingCommandsReturnTheirRecords : Obligations.ReadingCommandsReturnTheirRecords := by
  intro t a s e hreset b ends word count pinned undurable dead levels set
  have hruns : ∀ {code : Byte} (args : List Byte), code ∈ ([1, 2, 9, 10, 11] : List Byte) → args.length ≤ 3 →
      args.length = argumentsOf code → ¬argumentRefused code (args.headD 0) →
      exec (commandRow t code args) s = .next (((s.tick t).effect code args).finish) := fun args hcode hkept hcount harg =>
    exec_commandRow_passes t hreset hkept (State.refusal_reading s args hcode hcount harg)
  have hword : ∀ v : BitVec 16, le16 v = word v.toNat := le16_eq
  have hset : ∀ x, setField x = set x := setField_eq
  have hpage : ∀ q : Option Nat, pageField q = word (q.getD 0xFFFF) := pageField_eq
  refine ⟨?status, fun ha => ?slotRead, fun ha he => ?entry, fun ha hend => ?empty, fun ha => ?portError⟩
  case status =>
    refine (hruns (code := 1) [] (by decide) (by decide) rfl (by decide)).trans ?_
    refine congrArg (fun v => Host.Outcome.next (State.finish v)) ?_
    show (s.tick t).respond 0x01 .ok b.statusPayload = _
    rw [State.respond_eq, State.statusPayload_eq]
    have hpend : (if b.pend = true then 2 else 0) = if undurable then 2 else 0 := ite_of_iff (State.pend_iff b) rfl rfl
    have halert : (if b.alert = true then 8 else 0) = if 0 < s.log.unread ∨ pinned ∨ s.store.state = .degraded then 8 else 0 :=
      ite_of_iff (State.alert_iff b) rfl rfl
    simp only [State.slotCount_eq, Remap.deadCount_eq, hpend, halert, hword, apply_ite BitVec.toNat]
    rfl
  case slotRead =>
    refine (hruns (code := 9) [a] (by decide) (by simp) rfl (by simp [argumentRefused, ha])).trans ?_
    refine congrArg (fun v => Host.Outcome.next (State.finish v)) ?_
    show (s.tick t).respond 0x09 .ok (b.slotPayload (slotOf a)) = _
    rw [State.respond_eq, State.slotPayload_eq]
    simp only [hpage, hset, slotOf_val ha]
    rfl
  case entry =>
    refine (hruns (code := 10) [a] (by decide) (by simp) rfl (by simp [argumentRefused, ha])).trans ?_
    refine congrArg (fun v => Host.Outcome.next (State.finish v)) ?_
    show (match s.remap.live[a.toNat]? with | some e => _ | none => _) = _
    rw [he]
    show (s.tick t).respond 0x0A .ok (b.entryPayload a.toNat e) = _
    unfold State.entryPayload
    rw [State.respond_eq, byteField, BitVec.ofNat_toNat, BitVec.setWidth_eq]
    simp only [hpage]
    rfl
  case empty =>
    refine (hruns (code := 10) [a] (by decide) (by simp) rfl (by simp [argumentRefused, ha])).trans ?_
    refine congrArg (fun v => Host.Outcome.next (State.finish v)) ?_
    show (match s.remap.live[a.toNat]? with | some e => _ | none => _) = _
    rw [List.getElem?_eq_none hend]
    rfl
  case portError =>
    intro p r
    refine (hruns (code := 11) [a] (by decide) (by simp) rfl (by simp [argumentRefused, ha])).trans ?_
    refine congrArg (fun v => Host.Outcome.next (State.finish v)) ?_
    show ((s.tick t).modPort p _).respond 0x0B .ok (errorPayload a r) = _
    unfold errorPayload
    rw [State.respond_eq, addressField_eq, optionField_map r.size sizeBytes (fun z => BitVec.ofNat 8 (sizeBytes z)) fun _ => rfl,
      optionField_map r.write Bool.toNat (fun w => if w then 1 else 0) (by decide)]
    rfl

/-! ### Configuration -/

theorem byte_of_ident {a : Byte} (hlow : 1 ≤ a.toNat) (hhigh : a.toNat ≤ 6) : a = 1 ∨ a = 2 ∨ a = 3 ∨ a = 4 ∨ a = 5 ∨ a = 6 := by
  bv_omega

theorem Params.get_ident (q : Params) {a : Byte} (hlow : 1 ≤ a.toNat) (hhigh : a.toNat ≤ 6) :
    q.get a = some ([q.settle, q.age, q.highwater, q.stall, q.retries, if q.aged then 1 else 0].getD (a.toNat - 1) 0) := by
  rcases byte_of_ident hlow hhigh with rfl | rfl | rfl | rfl | rfl | rfl
  case inr.inr.inr.inr.inr => exact congrArg some (by cases q.aged <;> rfl)
  all_goals rfl

theorem Params.set_ident (q : Params) {a : Byte} (hlow : 1 ≤ a.toNat) (hhigh : a.toNat ≤ 6) (v : Nat) :
    q.set a v =
      { settle := if a = 1 then v else q.settle, age := if a = 2 then v else q.age, highwater := if a = 3 then v else q.highwater
        stall := if a = 4 then v else q.stall, retries := if a = 5 then v else q.retries
        aged := if a = 6 then decide (v = 1) else q.aged } := by
  rcases byte_of_ident hlow hhigh with rfl | rfl | rfl | rfl | rfl | rfl <;> rfl

theorem le16_word16 (lo hi : Byte) : le16 (word16 lo hi) = [lo, hi] := by
  have hlow : BitVec.ofNat 8 (lo.toNat + 256 * hi.toNat) = lo := BitVec.eq_of_toNat_eq (by simp; omega)
  have hhigh : BitVec.ofNat 8 ((lo.toNat + 256 * hi.toNat) / 256) = hi := BitVec.eq_of_toNat_eq (by simp; omega)
  rw [le16_eq, word16_toNat, hlow, hhigh]

/-- Settles O55: the two commands read and write one parameter, and HIGHWATER alone seals. -/
theorem configurationReadAndSet : Obligations.ConfigurationReadAndSet := by
  intro t a lo hi s hreset hlow hhigh hage b v q value m
  have harg : ∀ code : Byte, code = 2 ∨ code = 3 → ¬argumentRefused code a := fun code hcode => by
    rcases hcode with rfl | rfl <;> simp [argumentRefused, hlow, hhigh]
  refine ⟨?get, fun hvalue => ?set⟩
  case get =>
    refine (exec_commandRow_passes t (code := 2) (args := [a]) hreset (by simp)
      (State.refusal_reading s [a] (by decide) rfl (harg 2 (.inl rfl)))).trans ?_
    refine congrArg (fun v => Host.Outcome.next (State.finish v)) ?_
    have hget : (s.params.get a).getD 0 = value := by rw [Params.get_ident q hlow hhigh]; rfl
    have hword : le16 (BitVec.ofNat 16 value) = [BitVec.ofNat 8 value, BitVec.ofNat 8 (value / 256)] := pageField_eq (some value)
    show (s.tick t).respond 0x02 .ok (a :: le16 (BitVec.ofNat 16 ((s.params.get a).getD 0))) = _
    rw [hget, hword]
    rfl
  case set =>
    have hpasses : s.refusal 3 [a, lo, hi] false = none :=
      State.refusal_none_of s _ (by decide) rfl (by simp [State.refusesLong]) (harg 3 (.inr rfl)) (by simp [State.stateRefuses])
        fun _ => hvalue
    refine (exec_commandRow_passes t (code := 3) (args := [a, lo, hi]) hreset (by simp) hpasses).trans ?_
    refine congrArg (fun v => Host.Outcome.next (State.finish v)) ?_
    have hvalueIs : configValue [a, lo, hi] = v := word16_toNat lo hi
    have hparams : ({ s.tick t with params := s.params.set a v } : State) = m := by rw [Params.set_ident q hlow hhigh]; rfl
    have hbytes : le16 (BitVec.ofNat 16 v) = [lo, hi] := by
      rw [← le16_word16, ← hvalueIs, configValue, BitVec.ofNat_toNat, BitVec.setWidth_eq]
      rfl
    have hseals : (if a = 0x03 then m.highWater else m) = m.sealedTo (if a = 3 then m.overflow else []) := by
      split
      · exact State.highWater_eq m hage
      · exact (State.sealedTo_nil m).symm
    show State.respond (if a = 0x03 then State.highWater { s.tick t with params := s.params.set a (configValue [a, lo, hi]) }
      else { s.tick t with params := s.params.set a (configValue [a, lo, hi]) }) 0x03 .ok
        (a :: le16 (BitVec.ofNat 16 (configValue [a, lo, hi]))) = _
    rw [hvalueIs, hparams, hbytes, hseals]
    rfl

/-! ### QUIESCE -/

theorem State.foldl_modSlot (l : List SlotIx) (f : Slot → Slot) (s : State) :
    l.foldl (fun s i => s.modSlot i f) s = { s with slots := (l.foldl (fun s i => s.modSlot i f) s).slots } := by
  induction l generalizing s with
  | nil => rfl
  | cons i l ih => exact ih (s.modSlot i f)

theorem State.clearDeadlines_eq (s : State) :
    s.clearDeadlines = { s with slots := s.slots.map fun (x : Slot) => { x with settle := none, age := none } } := by
  have hslots : s.clearDeadlines.slots = s.slots.map fun (x : Slot) => { x with settle := none, age := none } :=
    Vector.ext fun i hi => by
      rw [Vector.getElem_map]
      exact State.slot_clearDeadlines s ⟨i, hi⟩
  rw [← hslots]
  exact State.foldl_modSlot allSlots Slot.clearDeadlines s

/-- Settles O57: the flush, the deadlines removed and the store DRAINING, or QUIESCED where nothing is to drain. -/
theorem quiesceSealsAndDrains : Obligations.QuiesceSealsAndDrains := by
  intro t s hreset hrunning hlong hage f m
  have hpasses : s.refusal 5 [] false = none :=
    State.refusal_none_of s _ (by decide) rfl (by simp [State.refusesLong, hlong]) (by simp [argumentRefused])
      (by simp [State.stateRefuses, hrunning]) (by simp)
  refine (exec_commandRow_passes t (code := 5) (args := []) hreset (by simp) hpasses).trans ?_
  refine congrArg (fun v => Host.Outcome.next (State.finish v)) ?_
  have hflush : (s.tick t).sealAll.clearDeadlines = { f with slots := f.slots.map fun (x : Slot) => { x with settle := none, age := none } } := by
    rw [State.sealAll_eq (s.tick t) hage, State.clearDeadlines_eq]
    rfl
  show (s.tick t).doQuiesce = _
  unfold State.doQuiesce
  dsimp only
  rw [hflush]
  rfl

end Sys2Proof.Machine

/-! PROOF. START and STOP (R168, R170): no operation of the grant rule reads or changes the management port's record, nor the log or the
start-up's phase, so a command run by a bus condition does what its own row does. -/

namespace Sys2Proof.Machine

/-- A change of what the host accesses, the seals and the grant rule neither read nor change: the fault log, the management port's
record, and the start-up's phase and hold deadline. -/
structure Dress where
  log : FaultLog → FaultLog := id
  mgmt : MgmtPort → MgmtPort := id
  phase : Option StartPhase → Option StartPhase := id
  hold : Option Time → Option Time := id

variable {s u : State} {i : SlotIx} {p : PortId} {acc : Access} {q : Dress}

/-- The state with such a change made. -/
def State.dress (s : State) (q : Dress) : State :=
  { s with log := q.log s.log, mgmt := q.mgmt s.mgmt
           store := { s.store with phase := q.phase s.store.phase, holdDeadline := q.hold s.store.holdDeadline } }

theorem State.slot_dress (s : State) (q : Dress) (i : SlotIx) : (s.dress q).slot i = s.slot i := rfl

theorem State.port_dress (s : State) (q : Dress) (p : PortId) : (s.dress q).port p = s.port p := by
  cases p <;> rfl

theorem State.lookup_dress (s : State) (q : Dress) (page : Nat) : (s.dress q).lookup page = s.lookup page := rfl

theorem State.allocatable_dress (s : State) (q : Dress) : (s.dress q).allocatable = s.allocatable := rfl

theorem State.join_dress (s : State) (q : Dress) (i : SlotIx) (st : SlotState) :
    (s.dress q).join i st = (s.join i st).dress q := by
  cases st
  case dirty =>
    have hplace : (s.dress q).insertByAge i s.ageList = s.insertByAge i s.ageList :=
      State.insertByAge_congr (s := s) (u := s.dress q) (fun _ => rfl) i s.ageList
    exact congrArg (fun l => ({ s.dress q with ageList := l } : State)) hplace
  all_goals rfl

theorem State.leave_dress (s : State) (q : Dress) (i : SlotIx) : (s.dress q).leave i = (s.leave i).dress q := by
  unfold State.leave
  rw [State.slot_dress]
  cases (s.slot i).state <;> rfl

theorem State.moveTo_dress (s : State) (q : Dress) (i : SlotIx) (st : SlotState) :
    (s.dress q).moveTo i st = (s.moveTo i st).dress q := by
  unfold State.moveTo
  rw [State.leave_dress]
  exact State.join_dress ((s.leave i).modSlot i fun x => x.become st) q i st

theorem State.foldl_dress {α : Type} {f : State → α → State} (hf : ∀ s a, f (s.dress q) a = (f s a).dress q)
    (l : List α) (s : State) : l.foldl f (s.dress q) = (l.foldl f s).dress q := by
  induction l generalizing s with
  | nil => rfl
  | cons a l ih =>
    rw [List.foldl_cons, hf, ih]
    rfl

theorem State.ite_dress {c : Prop} [Decidable c] {a b : State} :
    (if c then a.dress q else b.dress q) = (if c then a else b).dress q := by
  split <;> rfl

theorem State.sealOne_dress (s : State) (i : SlotIx) : (s.dress q).sealOne i = (s.sealOne i).dress q := by
  show (if (s.slot i).state = .dirty then (s.dress q).moveTo i .sealed else s.dress q) = _
  rw [State.moveTo_dress, State.ite_dress]
  rfl

theorem State.sealNamed_dress (s : State) (i : SlotIx) : (s.dress q).sealNamed i = (s.sealNamed i).dress q := by
  show (if (s.slot i).state = .dirty then if s.params.aged then
    ((s.ageList.takeWhile fun j => j ≠ i).foldl State.sealOne (s.dress q)).sealOne i else (s.dress q).sealOne i
    else s.dress q) = _
  rw [State.foldl_dress State.sealOne_dress, State.sealOne_dress, State.sealOne_dress, State.ite_dress,
    State.ite_dress]
  rfl

theorem State.fullPage_dress (s : State) (i : SlotIx) : (s.dress q).fullPage i = (s.fullPage i).dress q := by
  show (if s.committable ∧ (s.slot i).dirty = fullSet then (s.dress q).sealNamed i else s.dress q) = _
  rw [State.sealNamed_dress, State.ite_dress]
  rfl

theorem State.highWater_dress (s : State) : (s.dress q).highWater = s.highWater.dress q := by
  show (if s.committable then (s.ageList.take _).foldl State.sealOne (s.dress q) else s.dress q) = _
  rw [State.foldl_dress State.sealOne_dress, State.ite_dress]
  rfl

theorem State.giveDeadlines_dress (s : State) (i : SlotIx) : (s.dress q).giveDeadlines i = (s.giveDeadlines i).dress q := by
  unfold State.giveDeadlines
  rw [← State.ite_dress]
  rfl

theorem State.merge_dress (s : State) (i : SlotIx) (acc : Access) : (s.dress q).merge i acc = (s.merge i acc).dress q := by
  have hclean : ∀ m : State, (((m.dress q).moveTo i .dirty).giveDeadlines i).highWater =
      ((m.moveTo i .dirty).giveDeadlines i).highWater.dress q := fun m => by
    rw [State.moveTo_dress, State.giveDeadlines_dress, State.highWater_dress]
  unfold State.merge
  rw [State.slot_dress]
  cases (s.slot i).state
  case clean => exact hclean (s.modSlot i fun x => x.merge acc s.now)
  case dirty =>
    exact State.fullPage_dress ((s.modSlot i fun x => x.merge acc s.now).modSlot i fun x =>
      x.restartSettle (s.now + s.params.settle * Config.settleUnit)) i
  all_goals rfl

theorem State.allocate_dress (s : State) (i : SlotIx) (page : Nat) :
    (s.dress q).allocate i page = (s.allocate i page).dress q := by
  unfold State.allocate
  rw [State.moveTo_dress]
  rfl

theorem State.answer_dress (s : State) (p : PortId) (rd : BitVec 32) : (s.dress q).answer p rd = (s.answer p rd).dress q := by
  cases p <;> rfl

theorem State.writeInto_dress (s : State) (p : PortId) (acc : Access) :
    (s.dress q).writeInto p acc = (s.writeInto p acc).dress q := by
  unfold State.writeInto
  rw [State.lookup_dress]
  cases s.lookup acc.page with
  | some i =>
    show ((s.dress q).merge i acc).answer p 0 = _
    rw [State.merge_dress, State.answer_dress]
  | none =>
    dsimp only
    rw [State.allocatable_dress]
    cases s.allocatable with
    | none => rfl
    | some i =>
      show (((s.dress q).allocate i acc.page).merge i acc).answer p 0 = _
      rw [State.allocate_dress, State.merge_dress, State.answer_dress]

theorem State.serveWrite_dress (s : State) (p : PortId) : (s.dress q).serveWrite p = (s.serveWrite p).dress q := by
  unfold State.serveWrite
  rw [State.port_dress]
  split
  · exact State.writeInto_dress s p _
  · rfl

theorem State.serveWaiting_dress (s : State) : (s.dress q).serveWaiting = s.serveWaiting.dress q :=
  State.foldl_dress State.serveWrite_dress s.portsByArrival s

theorem State.touch_dress (s : State) (i : SlotIx) : (s.dress q).touch i = (s.touch i).dress q := by
  unfold State.touch
  rw [State.slot_dress]
  cases (s.slot i).state
  case clean => exact State.moveTo_dress s q i .clean
  all_goals rfl

theorem State.answerWaiter_dress (i : SlotIx) (s : State) (p : PortId) :
    State.answerWaiter i (s.dress q) p = (State.answerWaiter i s p).dress q := by
  unfold State.answerWaiter
  rw [State.port_dress]
  rw [State.slot_dress]
  split
  · exact (ite_of_iff Iff.rfl (State.answer_dress (s.modSlot i fun x => x.setWait p none) p _) rfl).trans State.ite_dress
  · rfl

theorem State.completeFill_dress (s : State) (i : SlotIx) (page : Nat) (offs : OffsetSet) :
    (s.dress q).completeFill i page offs = (s.completeFill i page offs).dress q := by
  have hanswered : ∀ m : State, (m.dress q).answerWaiters i = (m.answerWaiters i).dress q :=
    State.foldl_dress (State.answerWaiter_dress i) _
  unfold State.completeFill
  generalize hm : s.modSlot i (fun x => { x.land (fun k => s.chip.read page k) offs with fillPending := none }) = m
  have hm' : (s.dress q).modSlot i (fun x => { x.land (fun k => (s.dress q).chip.read page k) offs with fillPending := none }) =
      m.dress q := by rw [← hm]; rfl
  dsimp only
  rw [hm', hanswered, State.touch_dress, ← State.ite_dress]
  rfl

theorem State.grantRequest_dress (s : State) (r : Request) : (s.dress q).grantRequest r = (s.grantRequest r).dress q := by
  cases r with
  | fill i =>
    unfold State.grantRequest
    have hfill := State.completeFill_dress (q := q) s.takeRequest i (s.translate ((s.slot i).page.getD 0)) 0
    by_cases hnone : (s.slot i).fillPending.getD 0 &&& ~~~(s.slot i).present = 0
    · refine (if_pos hnone).trans (Eq.trans ?_ (congrArg (fun m => State.dress m q) (if_pos hnone).symm))
      exact (congrArg State.serveWaiting hfill).trans (State.serveWaiting_dress _)
    · refine (if_neg hnone).trans (Eq.trans ?_ (congrArg (fun m => State.dress m q) (if_neg hnone).symm))
      rfl
  | bypass p =>
    unfold State.grantRequest
    show (match ((s.takeRequest.dress q).port p).access with | none => _ | some acc => _) = _
    rw [State.port_dress]
    dsimp only
    cases (s.takeRequest.port p).access <;> rfl

theorem State.issueLoad_dress (s : State) : (s.dress q).issueLoad = s.issueLoad.dress q := by
  have hset : ∀ a, (s.dress q).setAttempt a = (s.setAttempt a).dress q := fun a => by
    cases hw : s.writer with
    | some w => simp only [State.setAttempt, State.dress, hw]
    | none => cases hc : s.commit <;> simp only [State.setAttempt, State.dress, hw, hc]
  unfold State.issueLoad
  show (match s.attempt with | none => _ | some a => _) = _
  cases s.attempt with
  | none => rfl
  | some a =>
    dsimp only
    cases a.toLoad with
    | nil => rfl
    | cons k rest =>
      dsimp only
      rw [hset]
      rfl

theorem State.snapshot_dress (s : State) : (s.dress q).snapshot = s.snapshot.dress q := by
  unfold State.snapshot
  show (match s.queue with | [] => _ | i :: _ => _) = _
  cases s.queue with
  | nil => rfl
  | cons i rest =>
    dsimp only
    rw [State.moveTo_dress, ← State.issueLoad_dress]
    rfl

theorem State.grantEngine_dress (s : State) : (s.dress q).grantEngine = s.grantEngine.dress q := by
  unfold State.grantEngine
  show (match s.engineReq with | none => _ | some .commitEngine => _ | some .mapWriter => _) = _
  rcases s.engineReq with _ | _ | _
  · rfl
  · exact State.snapshot_dress s
  · exact State.issueLoad_dress { s with owner := .mapWriter, engineReq := none, fairness := 0 }

theorem State.offer_dress (s : State) : (s.dress q).offer = s.offer.dress q := by
  unfold State.offer
  rw [← State.ite_dress]
  rfl

theorem State.arbitrate_dress (n : Nat) (s : State) : State.arbitrate n (s.dress q) = (State.arbitrate n s).dress q := by
  induction n generalizing s with
  | zero => rfl
  | succ n ih =>
    unfold State.arbitrate
    rw [State.offer_dress]
    generalize s.offer = m
    dsimp only
    rw [State.grantEngine_dress]
    show (if m.arrayFree = false then _ else if m.engineReq.isSome = true ∧ (m.pfw = true ∨ m.fairness = 4) then _
      else match m.requests with | r :: _ => _ | [] => if m.engineReq.isSome = true then _ else _) = _
    rw [← State.ite_dress, ← State.ite_dress]
    refine ite_of_iff Iff.rfl rfl (ite_of_iff Iff.rfl rfl ?_)
    cases m.requests with
    | cons r rest =>
      dsimp only
      rw [State.grantRequest_dress]
      exact ih _
    | nil => exact State.ite_dress

theorem State.finish_dress (s : State) (q : Dress) : (s.dress q).finish = s.finish.dress q :=
  State.arbitrate_dress _ s

/-! ### START and STOP -/

/-- The condition that ends a transaction: the bus is IDLE, after a START with the address byte due (R168). -/
def MgmtPort.turned (q : MgmtPort) (stop : Bool) : MgmtPort := { q with bus := .idle, addressDue := !stop }

/-- What the two conditions do while RESET_N is high. -/
theorem exec_conditions (t : Time) (hreset : s.resetN = true) :
    exec (.stopCondition t) s = .next (((s.tick t).endOpenWrite.modMgmt fun q => q.turned true).finish) ∧
      exec (.startCondition t) s = .next (((s.tick t).endOpenWrite.modMgmt fun q => q.turned false).finish) :=
  ⟨congrArg Host.Outcome.next (if_pos hreset), congrArg Host.Outcome.next (if_pos hreset)⟩

/-- Settles O50: the open write's command is run first, then the bus turns IDLE, which the grant rule does not see. -/
theorem busConditionsEndWrites : Obligations.BusConditionsEndWrites := by
  intro t stop code args s hreset hage b turn both
  have hboth : ∀ m, (s.tick t).endOpenWrite = m → both m := fun m hm => by
    obtain ⟨hstop, hstart⟩ := exec_conditions t hreset
    rw [hm] at hstop hstart
    exact ⟨hstop, hstart⟩
  refine ⟨fun hbus hreceived hkept hfew => ?command, fun hbus hreceived hover => hboth _ ?overflow, fun hbus hempty => hboth _ ?empty,
    fun hbus => hboth _ ?general, fun hbus => hboth _ ?other, ?misplaced⟩
  case command =>
    have hended : (s.tick t).endOpenWrite = (s.tick t).runCommand code args false := by
      unfold State.endOpenWrite State.endWrite
      rw [State.tick_mgmt, hbus, hreceived, hkept]
    obtain ⟨hstop, hstart⟩ := exec_conditions t hreset
    rw [hended] at hstop hstart
    have hturned : ∀ (m : State) (stop : Bool), (m.modMgmt fun q => q.turned stop).finish = turn stop m.finish := fun m stop => by
      exact State.finish_dress m { mgmt := fun q => q.turned stop }
    refine ⟨((s.tick t).runCommand code args false).finish, ?_, hstop.trans ?_, hstart.trans ?_⟩
    · rw [exec_commandRow, State.commandEvent, State.tick_resetN, if_pos hreset, List.take_of_length_le hfew,
        decide_eq_false (Nat.not_lt.mpr hfew)]
    · rw [hturned]
    · rw [hturned]
  case overflow =>
    unfold State.endOpenWrite State.endWrite
    rw [State.tick_mgmt, hbus, hreceived, hover]
    rfl
  case empty =>
    unfold State.endOpenWrite State.endWrite
    rw [State.tick_mgmt, hbus, hempty]
    rfl
  case general =>
    unfold State.endOpenWrite
    rw [State.tick_mgmt, hbus]
    exact ite_of_iff Iff.rfl (State.sealAll_eq (s.tick t) hage) rfl
  case other =>
    unfold State.endOpenWrite
    rw [State.tick_mgmt]
    rcases hbus with h | h | h <;> rw [h] <;> rfl
  case misplaced =>
    refine congrArg Host.Outcome.next ((if_pos hreset).trans ?_)
    cases stop <;> rfl

end Sys2Proof.Machine

/-! PROOF. Stall expiry (R40 to R42), the end of a fill (R18) and the retirement backfill (R108). -/

namespace Sys2Proof.Machine

variable {s u : State} {i : SlotIx} {p : PortId} {acc : Access}

/-! ### A CLEAN slot freed -/

/-- A CLEAN slot freed leaves the recency list for the free list. -/
theorem State.freeSlot_of_clean (h : (s.slot i).state = .clean) : s.freeSlot i =
    { s with recency := s.recency.erase i, freeList := insertAscending i s.freeList
             slots := s.slots.set i.val (s.slot i).emptied } := by
  have hmove : s.moveTo i .free = State.setSlot
      { s with recency := s.recency.erase i, freeList := insertAscending i s.freeList } i ((s.slot i).become .free) := by
    unfold State.moveTo State.leave
    rw [h]
    rfl
  unfold State.freeSlot
  rw [hmove, State.modSlot_eq, State.slot_setSlot_same, State.setSlot_setSlot]
  rfl

theorem State.releaseIfEmpty_of_present (h : (s.slot i).present ≠ 0) : s.releaseIfEmpty i = s :=
  if_neg fun hempty => h hempty.2.1

theorem State.releaseIfEmpty_of_clean (hstate : (s.slot i).state = .clean) (hpresent : (s.slot i).present = 0)
    (hdirty : (s.slot i).dirty = 0) (hidle : (s.slot i).idle) : s.releaseIfEmpty i = s.freeSlot i := by
  obtain ⟨hfill, hA, hB⟩ := hidle
  exact if_pos ⟨by rw [hstate]; nofun, hpresent, hdirty, by simp [Slot.unwaited, hA, hB], by simp [hfill]⟩

theorem Slot.unwaited_iff (x : Slot) : x.unwaited = true ↔ x.waitA = none ∧ x.waitB = none := by
  simp [Slot.unwaited]

/-! ### Stall expiry -/

/-- A stall deadline that has come is answered by the wait state. -/
theorem execStallExpiry_due (t : Time) {d : Time} (hstall : (s.port p).stall = some d) (hdue : d ≤ max s.now t) :
    exec (.stallExpiry t p) s = .next (match (s.port p).state, (s.port p).waited with
      | .waitFill, some i => ((s.tick t).expireFill p i).serveWaiting.finish
      | .waitBypass, _ => ((s.tick t).expireBypass p).serveWaiting.finish
      | .waitSlot, _ => ((s.tick t).answerError p .stallExpired .slot).serveWaiting.finish
      | _, _ => s.tick t) := by
  have hport : (s.tick t).port p = s.port p := by cases p <;> rfl
  show Host.Outcome.next (if (s.tick t).due ((s.tick t).port p).stall then _ else _) = _
  rw [if_pos ((State.due_iff _ _).2 ⟨by rw [hport, hstall]; nofun, by rw [hport, hstall]; exact hdue⟩), hport] <;> rfl

theorem State.expireBypass_eq {m : State} (hacc : (m.port p).access = some acc)
    (hm : m = if s.requests.contains (.bypass p) then { s with requests := s.requests.erase (.bypass p) }
      else if s.owner = .bypass p then s.dropReading else s) :
    s.expireBypass p = m.setPort p ((m.port p).refusing m.now acc .stallExpired .bypass) := by
  unfold State.expireBypass
  rw [← hm]
  exact State.answerError_refusing m .bypass hacc

theorem State.dropReading_eq (s : State) : s.dropReading = { s with reading := s.reading.map fun g => { g with dropped := true } } := by
  unfold State.dropReading
  cases s.reading <;> rfl

/-- Settles O31: the wait state decides what the expiry withdraws, and the port is answered. -/
theorem stallExpiryAnswersByWaitState : Obligations.StallExpiryAnswersByWaitState := by
  intro t p s i acc d h b x after
  have hport : ∀ m : State, m.portA = s.portA → m.portB = s.portB → m.port p = h := fun m hA hB => by
    cases p
    · exact hA
    · exact hB
  have hb : (s.tick t).port p = h := hport _ rfl rfl
  refine ⟨fun hnone => ?_, fun hstall hlate => ?_, fun hstall hdue hacc => ?_⟩
  · exact congrArg Host.Outcome.next (if_neg fun hd => ((State.due_iff _ _).1 hd).1 (hb ▸ hnone))
  · refine congrArg Host.Outcome.next (if_neg fun hd => ?_)
    obtain ⟨-, hle⟩ := (State.due_iff _ _).1 hd
    rw [hb, hstall] at hle
    exact absurd hle (Nat.not_le.mpr hlate)
  have hexec := execStallExpiry_due t hstall hdue
  have hafter : ∀ (m : State) (detail : Detail), m.portA = s.portA → m.portB = s.portB → m.now = max s.now t →
      m.answerError p .stallExpired detail = m.setPort p (h.refusing (max s.now t) acc .stallExpired detail) :=
    fun m detail hA hB hnow => by
      have hm := hport m hA hB
      rw [State.answerError_refusing m detail (by rw [hm]; exact hacc), hm, hnow]
  refine ⟨fun hstate hwaited => ?_, fun hstate hin => ?_, fun hstate hout howner => ?_, fun hstate => ?_⟩
  · rw [hstate, hwaited] at hexec
    have hslot : (b.setSlot i x).slot i = x := State.slot_setSlot_same b i x
    have hexpire : (s.tick t).expireFill p i = (if (x.unwaited = true ∧ s.requests.contains (.fill i) = true)
        then ((b.setSlot i x).withdrawFill i).releaseIfEmpty i else b.setSlot i x).answerError p .stallExpired .fill := by
      refine congrArg (fun m => State.answerError m p .stallExpired .fill) (ite_of_iff ?_ rfl rfl)
      show ((b.setSlot i x).slot i).unwaited = true ∧ _ ↔ _
      rw [hslot]
      rfl
    have hwithdrawn : (b.setSlot i x).withdrawFill i =
        { b with requests := s.requests.erase (.fill i), slots := s.slots.set i.val { x with fillPending := none } } := by
      unfold State.withdrawFill
      rw [State.modSlot_eq, hslot, State.setSlot_setSlot]
      rfl
    have hheld : (State.slot { b with requests := s.requests.erase (.fill i), slots := s.slots.set i.val { x with fillPending := none } } i)
        = { x with fillPending := none } :=
      State.slot_setSlot_same _ i _
    refine ⟨fun hkept => ?_, fun hA hB hin hpresent => ?_, fun hA hB hin hpresent hdirty hclean => ?_⟩
    · refine hexec.trans (congrArg (fun m => Host.Outcome.next (State.finish (State.serveWaiting m))) (hexpire.trans ?_))
      rw [if_neg (by
        rw [Slot.unwaited_iff, List.contains_iff_mem]
        rintro ⟨⟨hA, hB⟩, hin⟩
        rcases hkept with h | h | h <;> contradiction)]
      exact hafter _ _ rfl rfl rfl
    · refine hexec.trans (congrArg (fun m => Host.Outcome.next (State.finish (State.serveWaiting m))) (hexpire.trans ?_))
      rw [if_pos ⟨(Slot.unwaited_iff x).2 ⟨hA, hB⟩, List.contains_iff_mem.2 hin⟩, hwithdrawn,
        State.releaseIfEmpty_of_present (by rw [hheld]; exact hpresent)]
      exact hafter _ _ rfl rfl rfl
    · refine hexec.trans (congrArg (fun m => Host.Outcome.next (State.finish (State.serveWaiting m))) (hexpire.trans ?_))
      rw [if_pos ⟨(Slot.unwaited_iff x).2 ⟨hA, hB⟩, List.contains_iff_mem.2 hin⟩, hwithdrawn,
        State.releaseIfEmpty_of_clean (by rw [hheld]; exact hclean) (by rw [hheld]; exact hpresent) (by rw [hheld]; exact hdirty)
          (by rw [hheld]; exact ⟨rfl, hA, hB⟩),
        State.freeSlot_of_clean (by rw [hheld]; exact hclean), hheld]
      refine Eq.trans (hafter _ .fill ?_ ?_ ?_) ?_
      · rfl
      · rfl
      · rfl
      · simp only [Vector.set_set]
        rfl
  · rw [hstate] at hexec
    have hm : ({ b with requests := s.requests.erase (.bypass p) } : State) = if (s.tick t).requests.contains (.bypass p)
        then { s.tick t with requests := (s.tick t).requests.erase (.bypass p) }
        else if (s.tick t).owner = .bypass p then (s.tick t).dropReading else s.tick t :=
      (if_pos (List.contains_iff_mem.2 hin)).symm
    have hmport := hport { b with requests := s.requests.erase (.bypass p) } rfl rfl
    refine hexec.trans (congrArg (fun m => Host.Outcome.next (State.finish (State.serveWaiting m))) ?_)
    rw [State.expireBypass_eq (by rw [hmport]; exact hacc) hm, hmport]
  · rw [hstate] at hexec
    have hm : ({ b with reading := s.reading.map fun g => { g with dropped := true } } : State) =
        if (s.tick t).requests.contains (.bypass p) then { s.tick t with requests := (s.tick t).requests.erase (.bypass p) }
        else if (s.tick t).owner = .bypass p then (s.tick t).dropReading else s.tick t := by
      have hnot : ¬(s.tick t).requests.contains (.bypass p) = true := fun hc => hout (List.contains_iff_mem.1 hc)
      rw [if_neg hnot, if_pos (by exact howner), State.dropReading_eq]
      rfl
    have hmport := hport { b with reading := s.reading.map fun g => { g with dropped := true } } rfl rfl
    refine hexec.trans (congrArg (fun m => Host.Outcome.next (State.finish (State.serveWaiting m))) ?_)
    rw [State.expireBypass_eq (by rw [hmport]; exact hacc) hm, hmport]
  · rw [hstate] at hexec
    refine hexec.trans (congrArg (fun m => Host.Outcome.next (State.finish (State.serveWaiting m))) ?_)
    exact hafter b .slot rfl rfl rfl

/-! ### Bytes that land in a slot -/

theorem Page.ext_byte {x y : Page} (h : ∀ k < 64, Page.byte x k = Page.byte y k) : x = y :=
  Vector.ext fun k hk => by
    have := h k hk
    simpa [Page.byte, Vector.getElem?_eq_getElem hk] using this

theorem Slot.land_present (x : Slot) (f : Nat → Byte) (offs : OffsetSet) : (x.land f offs).present = x.present ||| offs := by
  refine BitVec.eq_of_getLsbD_eq fun k _ => ?_
  simp only [Slot.land, BitVec.getLsbD_or, BitVec.getLsbD_and, BitVec.getLsbD_not]
  cases x.present.getLsbD k <;> simp_all

theorem Page.byte_ofFn (f : Fin 64 → Byte) {k : Nat} (hk : k < 64) : Page.byte (Vector.ofFn f) k = f ⟨k, hk⟩ := by
  simp [Page.byte, Vector.getElem?_eq_getElem hk]

theorem Slot.land_image (x : Slot) (f : Nat → Byte) (offs : OffsetSet) : (x.land f offs).image = x.filled f offs := by
  refine Page.ext_byte fun k hk => ?_
  rw [Slot.filled, Page.byte_ofFn _ hk]
  refine (Page.byte_putEach f _ x.image k).trans (ite_of_iff ?_ rfl rfl)
  simp [members_iff, hk]

/-- The end of a fill with its image and present set in the statements' terms. -/
theorem State.completeFill_filled (s : State) (i : SlotIx) (page : Nat) (offs : OffsetSet)
    (h : s.waitersReady i ((s.slot i).present ||| offs)) :
    s.completeFill i page offs = s.fillDone i ((s.slot i).filled (fun k => s.chip.read page k) offs) ((s.slot i).present ||| offs) := by
  have hfill := State.completeFill_eq s i page offs (by rw [Slot.land_present]; exact h)
  rwa [Slot.land_present, Slot.land_image] at hfill

/-- Settles O32: the fill lands unless its slot was freed, and the read ends. -/
theorem fillCompletionLandsMissingBytes : Obligations.FillCompletionLandsMissingBytes := by
  intro t worn s i g hreading hkind b
  have hexec : exec (.fillCompletion t worn) s = .next (((b.landReading i g).serveWaiting.endReading).finish) := by
    show Host.Outcome.next (match s.reading with | some g => _ | none => _) = _
    rw [hreading]
    dsimp only
    rw [hkind]
    rfl
  refine ⟨fun hdropped => ?_, fun hlive hready => ?_⟩
  · rw [hexec, State.landReading, if_pos hdropped]
  · rw [hexec, State.landReading, if_neg (by rw [hlive]; exact Bool.false_ne_true),
      State.completeFill_filled b i g.page g.offsets hready]
    rfl

/-! ### The retirement backfill -/

theorem allSpares_eq : allSpares = List.finRange 16 := by decide

theorem mem_allSpares (sp : SpareIx) : sp ∈ allSpares := by
  rw [allSpares_eq]
  exact List.mem_finRange sp

theorem lt_of_mem_allSpares_before : ∀ sp q : SpareIx, q ∈ allSpares.takeWhile (fun b => b ≠ sp) → q < sp := by decide

/-- A spare that a retirement may take (R106). -/
theorem Remap.free_iff (r : Remap) (newlyDead : List SpareIx) (sp : SpareIx) :
    (!r.spareLive sp && !r.dead.getLsbD sp.val && !newlyDead.contains sp) = true ↔
      ¬((∃ e ∈ r.live, e.spare = sp) ∨ r.dead.getLsbD sp.val = true ∨ sp ∈ newlyDead) := by
  simp [Remap.spareLive, not_or, and_assoc]

theorem Remap.freeSpare_none_iff (r : Remap) (newlyDead : List SpareIx) : r.freeSpare newlyDead = none ↔ r.noneFree newlyDead := by
  unfold Remap.freeSpare
  rw [List.find?_eq_none]
  simp only [Remap.free_iff, Classical.not_not]
  exact ⟨fun h q => h q (mem_allSpares q), fun h q _ => h q⟩

theorem Remap.freeSpare_of_lowestFree {r : Remap} {newlyDead : List SpareIx} {sp : SpareIx} (h : r.lowestFree newlyDead sp) :
    r.freeSpare newlyDead = some sp := by
  obtain ⟨hlive, hdead, hnew, hlower⟩ := h
  refine find?_of_first (mem_allSpares sp) ((r.free_iff newlyDead sp).2 ?_) fun q hq => Bool.eq_false_iff.2 fun hfree =>
    (r.free_iff newlyDead q).1 hfree (hlower q ?_)
  · rintro (⟨e, he, hsp⟩ | h | h)
    · exact hlive e he hsp
    · rw [hdead] at h
      cases h
    · exact hnew h
  · exact lt_of_mem_allSpares_before sp q hq

theorem members_fullSet : members fullSet = List.range 64 := by decide

theorem State.spareSnapshot_eq (s : State) (c : CommitRecord) (sp : SpareIx) : s.spareSnapshot c sp = s.loadsSpare c sp := by
  unfold State.spareSnapshot State.loadsSpare
  rw [members_fullSet]
  rfl

/-- A slot that keeps its fill pending when a fill is over on it. -/
theorem State.fillDone_fillPending (s : State) (i : SlotIx) (image : Page) (present : OffsetSet) :
    (s.fillDone i image present).modSlot i (fun y => { y with fillPending := (s.slot i).fillPending }) =
      { s.fillDone i image present with
          slots := s.slots.set i.val { s.slot i with image := image, present := present, waitA := none, waitB := none } } := by
  rw [State.modSlot_eq]
  have hslot : (s.fillDone i image present).slot i =
      { s.slot i with image := image, present := present, fillPending := none, waitA := none, waitB := none } :=
    State.slot_setSlot_same s i _
  rw [hslot]
  simp [State.setSlot, State.fillDone, Vector.set_set]

/-- The backfill of a COMMITTING slot: its bytes land, the waiting ports are answered, and the fill pending stands. -/
theorem State.backfilled_eq (s : State) (i : SlotIx) (f : Nat → Byte) (offs : OffsetSet) (hstate : (s.slot i).state = .committing)
    (h : s.waitersReady i ((s.slot i).present ||| offs)) :
    (s.modSlot i fun x => x.land f offs).answerWaiters i =
      (s.fillDone i ((s.slot i).filled f offs) ((s.slot i).present ||| offs)).modSlot i fun y =>
        { y with fillPending := (s.slot i).fillPending } := by
  obtain ⟨⟨hsubA, haccA⟩, ⟨hsubB, haccB⟩, -⟩ := h
  have hland : (s.slot i).land f offs = { s.slot i with image := (s.slot i).filled f offs, present := (s.slot i).present ||| offs } := by
    rw [← Slot.land_image, ← Slot.land_present (f := f)]
    rfl
  have hservable : (s.setSlot i ((s.slot i).land f offs)).waitersServable i := by
    intro p w hw
    rw [State.slot_setSlot_same, hland] at hw ⊢
    rw [State.port_setSlot]
    cases p with
    | a =>
      have hw : (s.slot i).waitA = some w := hw
      exact ⟨haccA.resolve_left (by rw [hw]; nofun), by simpa [hw] using hsubA⟩
    | b =>
      have hw : (s.slot i).waitB = some w := hw
      exact ⟨haccB.resolve_left (by rw [hw]; nofun), by simpa [hw] using hsubB⟩
  have hrecency : (if (s.slot i).state = .clean ∧ ((s.slot i).waitA ≠ none ∨ (s.slot i).waitB ≠ none)
      then s.recency.erase i ++ [i] else s.recency) = s.recency :=
    if_neg fun hc => by rw [hstate] at hc; exact nomatch hc.1
  rw [State.modSlot_eq, State.answerWaiters_eq hservable, State.slot_setSlot_same, hland, State.fillDone_fillPending]
  simp [State.setSlot, State.fillDone, Vector.set_set, hrecency]

/-- The end of the backfill: the spare snapshot on the lowest free spare (R108, R109). -/
theorem State.completeBackfill_eq (s : State) {c : CommitRecord} {sp : SpareIx} (hstate : (s.slot c.slot).state = .committing)
    (hfree : s.remap.lowestFree c.newlyDead sp) (h : s.waitersReady c.slot ((s.slot c.slot).present ||| c.backfill)) :
    s.completeBackfill c = State.loadsSpare ((s.fillDone c.slot ((s.slot c.slot).filled (fun k => s.chip.read c.attempt.target k)
      c.backfill) ((s.slot c.slot).present ||| c.backfill)).modSlot c.slot fun y =>
        { y with fillPending := (s.slot c.slot).fillPending }) c sp := by
  unfold State.completeBackfill
  dsimp only
  rw [State.backfilled_eq s c.slot _ c.backfill hstate h]
  generalize hm : (s.fillDone c.slot _ _).modSlot c.slot _ = m
  have hremap : m.remap = s.remap := by rw [← hm]; rfl
  rw [hremap, Remap.freeSpare_of_lowestFree hfree]
  exact State.spareSnapshot_eq m c sp

/-- Settles O41: the bytes the home page returned land, and the spare is loaded. -/
theorem backfillFillsTheSlotForItsSpare : Obligations.BackfillFillsTheSlotForItsSpare := by
  intro t worn s c sp hcommit hphase hstate hfree hready b x m n
  have hexec : exec (.retireBackfillComplete t worn) s = .next ((b.completeBackfill c).finish) := by
    show Host.Outcome.next (match s.commit with | some c => _ | none => _) = _
    rw [hcommit]
    dsimp only
    rw [hphase]
    rfl
  rw [hexec, State.completeBackfill_eq b hstate hfree hready]
  rfl

end Sys2Proof.Machine

/-! PROOF. The entry to RUNNING (R143) and the outcomes of a commit (R74 to R82): each operation of the model as one explicit next
state. -/

namespace Sys2Proof.Machine

variable {s u : State} {i : SlotIx} {p : PortId} {acc : Access} {c : CommitRecord}

/-! ### Seals one after the other -/

theorem OnlySlots.eq {a b : State} (ha : OnlySlots s a) (hb : OnlySlots s b) (hslots : a.slots = b.slots)
    (hfree : a.freeList = b.freeList) (hrecency : a.recency = b.recency) (hage : a.ageList = b.ageList)
    (hpinned : a.pinned = b.pinned) (hqueue : a.queue = b.queue) : a = b := by
  unfold OnlySlots at ha hb
  rw [hslots, hfree, hrecency, hage, hpinned, hqueue] at ha
  rw [ha]
  exact hb.symm

theorem State.withSlots_frame (s : State) (slots : Vector Slot 32) (age queue : List SlotIx) :
    OnlySlots s { s with slots := slots, ageList := age, queue := queue } := rfl

theorem State.sealedTo_frame (s : State) (l : List SlotIx) : OnlySlots s (s.sealedTo l) := State.withSlots_frame s _ _ _

theorem State.sealedTo_sealedTo (s : State) (l m : List SlotIx) : (s.sealedTo l).sealedTo m = s.sealedTo (l ++ m) := by
  have hslots : ((s.sealedTo l).sealedTo m).slots = (s.sealedTo (l ++ m)).slots := slots_ext fun j => by
    show ((s.sealedTo l).sealedTo m).slot j = (s.sealedTo (l ++ m)).slot j
    simp only [State.slot_sealedTo, List.mem_append]
    by_cases hl : j ∈ l <;> by_cases hm : j ∈ m <;> simp [hl, hm]
  have hage : ((s.sealedTo l).sealedTo m).ageList = (s.sealedTo (l ++ m)).ageList := by
    show (s.ageList.filter _).filter _ = s.ageList.filter _
    rw [List.filter_filter]
    exact List.filter_congr fun j _ => by simp [List.mem_append, not_or, Bool.and_comm]
  have hqueue : ((s.sealedTo l).sealedTo m).queue = (s.sealedTo (l ++ m)).queue := by
    unfold State.sealedTo
    exact List.append_assoc s.queue l m
  exact ((s.sealedTo_frame l).trans (State.sealedTo_frame _ m)).eq (s.sealedTo_frame _) hslots
    (by simp only [State.sealedTo]) (by simp only [State.sealedTo]) hage (by simp only [State.sealedTo]) hqueue

theorem State.sealedTo_holds (h : s.holds s.ageList .dirty) (l : List SlotIx) :
    (s.sealedTo l).holds (s.sealedTo l).ageList .dirty := by
  obtain ⟨hnodup, hmem⟩ := h
  refine ⟨hnodup.filter _, fun j => ?_⟩
  rw [State.slot_sealedTo]
  show j ∈ s.ageList.filter _ ↔ _
  by_cases hj : j ∈ l <;> simp [hj, hmem]

/-! ### The entry to RUNNING -/

/-- A slot with deadlines counted from the entry to RUNNING (R50). -/
def State.withFresh (s : State) (x : Slot) : Slot :=
  { x with settle := some (s.now + s.params.settle * Config.settleUnit), age := some (s.now + s.params.age * Config.millisecond) }

theorem State.foldl_freshDeadlines (l : List SlotIx) (s : State) : l.foldl State.freshDeadlines s =
    { s with slots := Vector.ofFn fun (i : SlotIx) => if i ∈ l then s.withFresh (s.slot i) else s.slot i } := by
  induction l generalizing s with
  | nil =>
    have hsame : (Vector.ofFn fun (i : SlotIx) => if i ∈ ([] : List SlotIx) then s.withFresh (s.slot i) else s.slot i) = s.slots :=
      slots_ext fun i => by simp [State.slot]
    rw [hsame]
    rfl
  | cons i l ih =>
    refine (ih (s.freshDeadlines i)).trans ?_
    have hslot : ∀ j, (s.freshDeadlines i).slot j = if i = j then s.withFresh (s.slot j) else s.slot j := fun j => by
      refine (State.slot_modSlot s i j s.withFresh).trans ?_
      by_cases h : i = j <;> simp [h]
    have hslots : (Vector.ofFn fun (j : SlotIx) => if j ∈ l then (s.freshDeadlines i).withFresh ((s.freshDeadlines i).slot j)
        else (s.freshDeadlines i).slot j) =
        Vector.ofFn fun (j : SlotIx) => if j ∈ i :: l then s.withFresh (s.slot j) else s.slot j := by
      congr 1
      funext j
      rw [hslot]
      by_cases hi : i = j
      · subst hi
        rw [if_pos rfl, if_pos List.mem_cons_self]
        split <;> rfl
      · rw [if_neg hi]
        exact ite_of_iff (by simp [Ne.symm hi]) rfl rfl
    rw [hslots]
    rfl

/-- The full-page check of one DIRTY slot, the slots of a list sealed already. -/
theorem State.fullPage_sealedTo (h : s.holds s.ageList .dirty) (hworks : s.works) {l : List SlotIx} (hi : i ∉ l)
    (hdirty : (s.slot i).state = .dirty) : (s.sealedTo l).fullPage i =
      if (s.slot i).dirty = fullSet then s.sealedTo (l ++ (s.sealedTo l).sealsFor i) else s.sealedTo l := by
  have hslot : (s.sealedTo l).slot i = s.slot i := by rw [State.slot_sealedTo, if_neg hi]
  split
  · rename_i hfull
    rw [State.fullPage_full (State.sealedTo_holds h l) (by rw [hslot]; exact hdirty) hworks (by rw [hslot]; exact hfull),
      State.sealedTo_sealedTo]
  · exact State.fullPage_not (.inr (by rw [hslot]; assumption))

theorem State.sealsFor_relaxed (h : s.params.aged = false) (i : SlotIx) : s.sealsFor i = [i] := by
  unfold State.sealsFor
  rw [if_neg (by rw [h]; nofun)]

theorem State.sealsFor_aged (h : s.params.aged = true) (i : SlotIx) :
    s.sealsFor i = s.ageList.takeWhile (fun j => j ≠ i) ++ [i] := by
  unfold State.sealsFor
  rw [if_pos h]

theorem not_mem_of_nodup_append {α : Type} {a : α} {l m : List α} (h : (l ++ a :: m).Nodup) : a ∉ l := fun ha =>
  (List.nodup_append.1 h).2.2 a ha a List.mem_cons_self rfl

/-- In ORDER RELAXED the full pages alone are sealed. -/
theorem State.foldl_fullPage_relaxed (h : s.holds s.ageList .dirty) (hworks : s.works) (horder : s.params.aged = false)
    {l m : List SlotIx} (hnodup : (l ++ m).Nodup) (hdirty : ∀ i ∈ m, (s.slot i).state = .dirty) :
    m.foldl State.fullPage (s.sealedTo l) = s.sealedTo (l ++ m.filter fun i => decide ((s.slot i).dirty = fullSet)) := by
  induction m generalizing l with
  | nil => rw [List.filter_nil, List.append_nil, List.foldl_nil]
  | cons i m ih =>
    have hi : i ∉ l := not_mem_of_nodup_append hnodup
    have hseals : (s.sealedTo l).sealsFor i = [i] := State.sealsFor_relaxed (s := s.sealedTo l) horder i
    have hrest : ∀ j ∈ m, (s.slot j).state = .dirty := fun j hj => hdirty j (List.mem_cons_of_mem i hj)
    rw [List.foldl_cons, State.fullPage_sealedTo h hworks hi (hdirty i List.mem_cons_self), hseals, List.filter_cons]
    by_cases hfull : (s.slot i).dirty = fullSet
    · have hnodup' : ((l ++ [i]) ++ m).Nodup := by rwa [List.append_assoc]
      rw [if_pos hfull, if_pos (decide_eq_true hfull), ih hnodup' hrest, List.append_assoc, List.singleton_append]
    · have hnodup' : (l ++ m).Nodup := hnodup.sublist ((List.sublist_cons_self i m).append_left l)
      rw [if_neg hfull, if_neg (by simpa using hfull), ih hnodup' hrest]

/-- A list up to its last full page. -/
def throughLast (full : SlotIx → Bool) (l : List SlotIx) : List SlotIx := (l.reverse.dropWhile fun i => !full i).reverse

theorem throughLast_concat (full : SlotIx → Bool) (l : List SlotIx) (i : SlotIx) :
    throughLast full (l ++ [i]) = if full i then l ++ [i] else throughLast full l := by
  unfold throughLast
  rw [List.reverse_append, List.reverse_singleton, List.singleton_append, List.dropWhile_cons]
  cases full i <;> simp

theorem throughLast_prefix (full : SlotIx → Bool) (l : List SlotIx) : throughLast full l <+: l := by
  unfold throughLast
  exact List.reverse_suffix.1 (by rw [List.reverse_reverse]; exact List.dropWhile_suffix _)

/-- In ORDER AGED every slot up to the last full page is sealed. -/
theorem State.foldl_fullPage_aged (h : s.holds s.ageList .dirty) (hworks : s.works) (horder : s.params.aged = true)
    {l m : List SlotIx} (hage : s.ageList = l ++ m) :
    m.foldl State.fullPage (s.sealedTo (throughLast (fun i => decide ((s.slot i).dirty = fullSet)) l)) =
      s.sealedTo (throughLast (fun i => decide ((s.slot i).dirty = fullSet)) s.ageList) := by
  obtain ⟨hnodup, hmem⟩ := h
  induction m generalizing l with
  | nil => rw [hage, List.append_nil, List.foldl_nil]
  | cons i m ih =>
    have hall : (l ++ i :: m).Nodup := hage ▸ hnodup
    have hil : i ∉ l := not_mem_of_nodup_append hall
    obtain ⟨rest, hrest⟩ := throughLast_prefix (fun i => decide ((s.slot i).dirty = fullSet)) l
    have hstep : s.ageList = (l ++ [i]) ++ m := by rw [hage, List.append_assoc, List.singleton_append]
    have hconcat := throughLast_concat (fun i => decide ((s.slot i).dirty = fullSet)) l i
    have hdirty : (s.slot i).state = .dirty := (hmem i).1 (by rw [hage]; simp)
    generalize throughLast (fun i => decide ((s.slot i).dirty = fullSet)) l = kept at hrest hconcat
    have hi : i ∉ kept := fun hi => hil (hrest ▸ List.mem_append_left rest hi)
    rw [List.foldl_cons, State.fullPage_sealedTo ⟨hnodup, hmem⟩ hworks hi hdirty]
    by_cases hfull : (s.slot i).dirty = fullSet
    · have hapart := (List.nodup_append.1 (show (kept ++ (rest ++ i :: m)).Nodup by rwa [← List.append_assoc, hrest])).2.2
      have hahead : (s.sealedTo kept).sealsFor i = rest ++ [i] := by
        rw [State.sealsFor_aged (s := s.sealedTo kept) horder i]
        refine congrArg (fun l => l ++ [i]) ?_
        have hleft : (kept ++ (rest ++ i :: m)).filter (fun j => j ∉ kept) = rest ++ i :: m := by
          rw [List.filter_append, List.filter_eq_nil_iff.2 (by simp), List.nil_append,
            List.filter_eq_self.2 fun j hj => by simpa using fun hk => hapart j hk j hj rfl]
        show (s.ageList.filter fun j => j ∉ kept).takeWhile _ = rest
        rw [hage, ← hrest, List.append_assoc, hleft, List.takeWhile_append_of_pos, List.takeWhile_cons_of_neg (by simp),
          List.append_nil]
        intro j hj
        have hne : j ≠ i := fun h => hil (hrest ▸ List.mem_append_right kept (h ▸ hj))
        simpa using hne
      rw [if_pos hfull, hahead, ← List.append_assoc, hrest, ← ih hstep, hconcat, if_pos (decide_eq_true hfull)]
    · rw [if_neg hfull, ← ih hstep, hconcat, if_neg (by simpa using hfull)]

/-- Settles O15: fresh deadlines, the full-page checks in age order, then high water. -/
theorem entryToRunning : Obligations.EntryToRunning := by
  intro s hage d full f
  obtain ⟨hnodup, hmem⟩ := hage
  have hfresh : s.ageList.foldl State.freshDeadlines { s with store :=
      { s.store with state := .running, cause := none, origin := none, phase := none, holdDeadline := none } } = d := by
    rw [State.foldl_freshDeadlines]
    have hslots : ∀ j : SlotIx, (if j ∈ s.ageList then s.withFresh (s.slot j) else s.slot j) =
        if (s.slot j).state = .dirty then s.withFresh (s.slot j) else s.slot j := fun j => ite_of_iff (hmem j) rfl rfl
    exact congrArg (fun v => ({ d with slots := Vector.ofFn v } : State)) (funext hslots)
  have hstate : ∀ j, (d.slot j).state = (s.slot j).state ∧ (d.slot j).dirty = (s.slot j).dirty := fun j => by
    have hslot : d.slot j = if (s.slot j).state = .dirty then s.withFresh (s.slot j) else s.slot j := by simp [d, State.slot, State.withFresh]
    rw [hslot]
    split <;> exact ⟨rfl, rfl⟩
  have hholds : d.holds d.ageList .dirty := ⟨hnodup, fun j => by rw [(hstate j).1]; exact hmem j⟩
  have hworks : d.works := .inl rfl
  have hdirty : ∀ j ∈ d.ageList, (d.slot j).state = .dirty := fun j hj => (hholds.2 j).1 hj
  have hfull : (fun j => decide ((d.slot j).dirty = fullSet)) = full := funext fun j => by rw [(hstate j).2]
  have hpages : d.ageList.foldl State.fullPage d = f := by
    cases horder : s.params.aged with
    | false =>
      have hrelaxed := State.foldl_fullPage_relaxed (l := []) (m := d.ageList) hholds hworks horder hnodup hdirty
      rw [State.sealedTo_nil, hfull] at hrelaxed
      refine hrelaxed.trans (congrArg d.sealedTo ?_)
      rw [horder]
      rfl
    | true =>
      have haged := State.foldl_fullPage_aged (l := []) (m := d.ageList) hholds hworks horder rfl
      rw [show throughLast _ [] = [] from rfl, State.sealedTo_nil, hfull] at haged
      refine haged.trans (congrArg d.sealedTo ?_)
      rw [horder]
      rfl
  unfold State.enterRunning
  dsimp only
  rw [hfresh, hpages]
  exact State.highWater_eq f (State.sealedTo_holds hholds _)

end Sys2Proof.Machine

/-! PROOF. The outcomes of a commit, of a retirement and of a map write (R74 to R82, R109 to R116, R130 to R136): each operation
of the model as one explicit next state. -/

namespace Sys2Proof.Machine

variable {s u : State} {i : SlotIx} {p : PortId} {acc : Access} {c : CommitRecord}

/-! ### Failing sets and load orders -/

theorem setOf_getLsbD (l : List Nat) {k : Nat} (hk : k < 64) : (setOf l).getLsbD k = decide (k ∈ l) := by
  induction l with
  | nil => simp [setOf]
  | cons j l ih =>
    have hone : (k < 64 ∧ j ≤ k ∧ k < j + 1) ↔ k = j := by omega
    rw [setOf, BitVec.getLsbD_or, ih, span_getLsbD]
    simp only [hone, List.mem_cons, Bool.decide_or]

/-- The failing set of a verify is the one that the statements describe (R74). -/
theorem Attempt.failingSet_eq {worn : List Host.Cell} {a : Attempt} {failing : OffsetSet} (h : s.failsAt worn a failing) :
    (a.failingSet fun k => s.reads worn a.target k) = failing := by
  refine BitVec.eq_of_getLsbD_eq fun k hk => ?_
  rw [h k hk, Attempt.failingSet, setOf_getLsbD _ hk]
  simp [members_iff, Bool.decide_and]

theorem mapOrder_eq (x : OffsetSet) : mapOrder x = mapLoads x := by
  have hrest : (List.range 64).filter (fun k => k ≠ 54 && k ≠ 55) = List.range 54 ++ [56, 57, 58, 59, 60, 61, 62, 63] := by decide
  have hsplit : (List.range 54 ++ [56, 57, 58, 59, 60, 61, 62, 63, 54, 55] : List Nat) =
      (List.range 64).filter (fun k => k ≠ 54 && k ≠ 55) ++ [54, 55] := by rw [hrest, List.append_assoc]; rfl
  unfold mapOrder mapLoads members
  rw [hsplit, List.filter_append, List.filter_filter, List.filter_filter]
  simp only [Bool.and_comm]

theorem Attempt.again_eq (a : Attempt) (failing : OffsetSet) (order : List Nat) : a.again failing order = a.retrying failing order := by
  unfold Attempt.again Attempt.retrying
  cases a.firstFailing <;> rfl

/-! ### The outcome of a commit -/

theorem State.leave_committing (h : (s.slot i).state = .committing) : s.leave i = s := by
  unfold State.leave
  rw [h]

/-- A COMMITTING slot becomes PINNED with the bytes added back (R81). -/
theorem State.pin_eq (h : (s.slot i).state = .committing) (add : OffsetSet) : s.pin i add = s.pinnedWith i add := by
  unfold State.pin State.moveTo
  have hstate : ((s.modSlot i fun x => x.addBack add s.now).slot i).state = .committing := by
    rw [State.slot_modSlot_same]
    exact h
  rw [State.leave_committing hstate, State.modSlot_modSlot]
  rfl

theorem State.logPinned_eq (s : State) (c : CommitRecord) (cause : Byte) : s.logPinned c cause = s.recordsPinned c cause := rfl

theorem State.adopt_eq (s : State) (c : CommitRecord) : s.adopt c = { s with remap := s.remap.proposed c.tentative c.newlyDead } := by
  unfold State.adopt Remap.proposedLive Remap.proposed
  cases c.tentative <;> rfl

theorem State.recovered_eq (s : State) (c : CommitRecord) : s.recovered c = s.recordsRecovery c := by
  unfold State.recovered State.recordsRecovery
  by_cases h : c.attempt.number ≤ 1
  · rw [if_neg (by omega), if_pos h]
  · rw [if_pos (by omega), if_neg h]

theorem State.endCommit_eq (s : State) : s.endCommit = s.dropsCommit.serveWaiting.drainCheck := rfl

/-- The slot leaves COMMITTING: CLEAN, or DIRTY with the seals due (R77). -/
theorem State.leaveCommitting_eq (hstate : (s.slot i).state = .committing) (hfields : (s.slot i).fieldsOk)
    (hage : (s.slot i).dirty ≠ 0 → s.holds s.ageList .dirty) : s.leaveCommitting i = s.leavesCommit i := by
  obtain ⟨-, hsince, hdeadlines⟩ := hfields
  obtain ⟨hsettle, haged⟩ := hdeadlines (by rw [hstate]; nofun)
  unfold State.leaveCommitting State.leavesCommit
  by_cases hdirty : (s.slot i).dirty = 0
  · rw [if_pos hdirty]
    refine Eq.trans ?_ (if_pos hdirty).symm
    unfold State.moveTo
    rw [State.leave_committing hstate]
    rfl
  · rw [if_neg hdirty]
    refine Eq.trans ?_ (if_neg hdirty).symm
    obtain ⟨since, hsome⟩ := Option.ne_none_iff_exists'.1 fun hnone => hdirty (hsince.1 hnone)
    generalize hy : ({ s.slot i with state := SlotState.dirty, settle := s.newSettle, age := s.newAge ((s.slot i).dirtySince.getD s.now) }
      : Slot) = y
    have hysince : y.dirtySince = (s.slot i).dirtySince := by rw [← hy]
    have hystate : y.state = .dirty := by rw [← hy]
    have hydirty : y.dirty = (s.slot i).dirty := by rw [← hy]
    have hmoved : s.moveTo i .dirty = (s.setSlot i ((s.slot i).become .dirty)).enterAgeList i := by
      unfold State.moveTo
      rw [State.leave_committing hstate]
      rfl
    have hslot : (s.moveTo i .dirty).slot i = (s.slot i).become .dirty := State.slot_moveTo_same s i .dirty
    have hgiven : (s.moveTo i .dirty).giveDeadlines i = (s.setSlot i y).enterAgeList i := by
      rw [State.giveDeadlines_of_none (by rw [hslot]; exact ⟨hsettle, haged⟩), hslot, hmoved,
        State.enterAgeList_setSlot _ (by rw [State.slot_setSlot_same]), State.setSlot_setSlot, ← hy]
      rfl
    have hholds : ((s.setSlot i y).enterAgeList i).holds ((s.setSlot i y).enterAgeList i).ageList .dirty :=
      State.enterAgeList_holds (hage hdirty) (by rw [hstate]; nofun) rfl
        (fun j hj => by rw [State.slot_setSlot_ne s y (Ne.symm hj)]) (by rw [State.slot_setSlot_same]; exact hystate)
    rw [hgiven]
    dsimp only
    have hm : State.enterAgeList { s with slots := s.slots.set i.val y } i = (s.setSlot i y).enterAgeList i := rfl
    rw [hm]
    have hyslot : ((s.setSlot i y).enterAgeList i).slot i = y := State.slot_setSlot_same s i y
    generalize (s.setSlot i y).enterAgeList i = m at hholds hyslot
    have hsealed : (m.fullPage i).pfwSeal i =
        m.sealedTo (if m.works ∧ (s.slot i).dirty = fullSet ∨ m.pfw = true then m.sealsFor i else []) := by
      by_cases hfull : m.works ∧ (s.slot i).dirty = fullSet
      · obtain ⟨hworks, hfullSet⟩ := hfull
        rw [State.fullPage_full hholds (by rw [hyslot]; exact hystate) hworks (by rw [hyslot, hydirty]; exact hfullSet),
          if_pos (.inl ⟨hworks, hfullSet⟩)]
        have hnot : ((m.sealedTo (m.sealsFor i)).slot i).state ≠ .dirty := by
          rw [State.slot_sealedTo, if_pos]
          · nofun
          · unfold State.sealsFor
            split <;> simp
        unfold State.pfwSeal
        rw [State.sealNamed_other _ hnot, ite_self]
      · rw [State.fullPage_not (by rw [hyslot, hydirty]; exact Classical.not_and_iff_not_or_not.1 hfull)]
        unfold State.pfwSeal
        by_cases hpfw : m.pfw = true
        · rw [if_pos hpfw, if_pos (.inr hpfw), State.sealNamed_eq m hholds (by rw [hyslot]; exact hystate)]
        · rw [if_neg hpfw, if_neg (by rintro (h | h) <;> contradiction), State.sealedTo_nil]
    rw [hsealed]
    exact State.highWater_eq _ (State.sealedTo_holds hholds _)

theorem State.commitSucceeded_eq (hstate : (s.slot c.slot).state = .committing) (hfields : (s.slot c.slot).fieldsOk)
    (hage : (s.slot c.slot).dirty ≠ 0 → s.holds s.ageList .dirty) :
    s.commitSucceeded c = ((s.leavesCommit c.slot).recordsRecovery c).dropsCommit.serveWaiting.drainCheck := by
  unfold State.commitSucceeded
  rw [State.leaveCommitting_eq hstate hfields hage, State.recovered_eq, State.endCommit_eq]

theorem State.pinnedOutcome_eq (hstate : (s.slot c.slot).state = .committing) (add : OffsetSet) (cause : Byte) :
    ((s.pin c.slot add).logPinned c cause).endCommit =
      ((s.pinnedWith c.slot add).recordsPinned c cause).dropsCommit.serveWaiting.drainCheck := by
  rw [State.pin_eq hstate, State.logPinned_eq, State.endCommit_eq]

/-! ### The events that end a poll or a verify -/

theorem exec_pollDeadlineExpiry (t : Time) {a : Attempt} {d : Time} (hattempt : s.attempt = some a) (hstep : a.step = .poll)
    (hdeadline : a.pollDeadline = some d) : exec (.pollDeadlineExpiry t) s = .next (if d ≤ max s.now t then
      match s.commit, s.writer with
        | some c, _ => ((s.tick t).commitTimeout c).finish
        | none, some w => ((s.tick t).formatTimeout w).finish
        | none, none => s.tick t
      else s.tick t) := by
  have hin : (s.tick t).attemptIn .poll = some a := State.attemptIn_eq hattempt hstep
  show Host.Outcome.next (match (s.tick t).attemptIn .poll with | some a => _ | none => _) = _
  rw [hin]
  refine congrArg Host.Outcome.next (ite_of_iff ?_ rfl rfl)
  rw [hdeadline]
  exact State.due_some_iff _ _

/-- A verify of the attempt under way, its failing set found (R74). -/
theorem exec_verifyComplete (t : Time) {worn : List Host.Cell} {a : Attempt} {failing : OffsetSet} (hattempt : s.attempt = some a)
    (hstep : a.step = .verify) (hfails : s.failsAt worn a failing) :
    exec (.verifyComplete t worn) s = .next (((s.seeing t worn).verified failing).finish) := by
  have hin : (s.tick t).attemptIn .verify = some a := State.attemptIn_eq hattempt hstep
  have hset := Attempt.failingSet_eq hfails
  show Host.Outcome.next (match (s.tick t).attemptIn .verify with | some a => _ | none => _) = _
  rw [hin]
  exact congrArg (fun x => Host.Outcome.next (((s.seeing t worn).verified x).finish)) hset

theorem State.attempt_writer {w : MapWriter} (hwriter : s.writer = some w) (h : s.commit ≠ none ∨ s.owner = .mapWriter) :
    s.attempt = some w.attempt := by
  unfold State.attempt
  rw [hwriter]
  cases hcommit : s.commit with
  | some c => rfl
  | none =>
    dsimp only
    rw [if_pos (h.resolve_left (Classical.not_not.2 hcommit))]

theorem State.attempt_commit (hwriter : s.writer = none) (hcommit : s.commit = some c) (hphase : c.phase = .home ∨ c.phase = .spareLoad) :
    s.attempt = some c.attempt := by
  unfold State.attempt
  rw [hwriter, hcommit]
  dsimp only
  rcases hphase with h | h <;> rw [h]

/-! ### Array timeout -/

theorem State.timeoutOutcome_eq (hstate : (s.slot c.slot).state = .committing) (target : Nat) (detail : Byte) (add : OffsetSet) :
    s.timeoutOutcome c target detail add = { ((((s.append .arrayTimeout (some c.page) (some target) none detail).pinnedWith c.slot
      add).recordsPinned c pinnedByTimeout).enterDegraded .arrayTimeout).dropsCommit with condition := .unsettled } := by
  have hpin := State.pin_eq (s := s.append .arrayTimeout (some c.page) (some target) none detail) hstate add
  unfold State.timeoutOutcome
  rw [hpin, State.logPinned_eq]
  generalize State.enterDegraded _ _ = m
  rfl

/-- Settles O39: the page polled gives the bytes added back and the effect on the table. -/
theorem pollTimeoutPinsTheSlot : Obligations.PollTimeoutPinsTheSlot := by
  intro t s c w d hcommit hstate b ended
  have hexec := fun a => exec_pollDeadlineExpiry (s := s) t (a := a) (d := d)
  have houtcome : ∀ remap add target detail,
      Host.Outcome.next ((State.timeoutOutcome { b with remap } c target detail add).finish) = ended remap add target detail :=
    fun remap add target detail => by rw [State.timeoutOutcome_eq (s := { b with remap }) hstate target detail add]
  refine ⟨fun hnone hstep hdead hphase hlate => ?_, fun hnone hstep hdead hdue => ⟨fun hphase => ?_, fun hphase => ?_⟩,
    fun hwriter hstep hdead hdue => ?_, fun hwriter hstep hdead hlate => ?_⟩
  · rw [hexec _ (State.attempt_commit hnone hcommit hphase) hstep hdead, if_neg (Nat.not_le.mpr hlate)]
    rfl
  · rw [hexec _ (State.attempt_commit hnone hcommit (.inl hphase)) hstep hdead, if_pos hdue, hcommit]
    dsimp only
    rw [State.commitTimeout_eq, State.tick_writer, hnone, hphase]
    exact houtcome s.remap _ _ _
  · rw [hexec _ (State.attempt_commit hnone hcommit (.inr hphase)) hstep hdead, if_pos hdue, hcommit]
    dsimp only
    rw [State.commitTimeout_eq, State.tick_writer, hnone, hphase]
    dsimp only
    rw [State.adopt_eq]
    exact houtcome (s.remap.proposed none c.newlyDead) _ _ _
  · rw [hexec _ (State.attempt_writer hwriter (.inl (by rw [hcommit]; nofun))) hstep hdead, if_pos hdue, hcommit]
    dsimp only
    rw [State.commitTimeout_eq, State.tick_writer, hwriter]
    dsimp only
    rw [State.adopt_eq]
    exact houtcome (s.remap.proposed c.tentative c.newlyDead) _ _ _
  · rw [hexec _ (State.attempt_writer hwriter (.inl (by rw [hcommit]; nofun))) hstep hdead, if_neg (Nat.not_le.mpr hlate)]
    rfl

/-! ### The verify on the home page -/

theorem Slot.filled_empty (x : Slot) (f : Nat → Byte) : x.filled f 0 = x.image := by
  rw [← Slot.land_image, Slot.land_empty]

/-- A re-attempt on the failing offsets of the commit's page. -/
theorem State.setAttempt_commit (hwriter : s.writer = none) (hcommit : s.commit = some c) (a : Attempt) :
    s.setAttempt a = { s with commit := some { c with attempt := a } } := by
  unfold State.setAttempt
  rw [hwriter, hcommit]

theorem State.setAttempt_writer {w : MapWriter} (hwriter : s.writer = some w) (a : Attempt) :
    s.setAttempt a = { s with writer := some { w with attempt := a } } := by
  unfold State.setAttempt
  rw [hwriter]

/-- Settles O40: the failing set and the attempt number decide. -/
theorem verifyOnHomePageDecides : Obligations.VerifyOnHomePageDecides := by
  intro t worn s c failing sp hwriter hcommit hphase hstep hfails hfields hstate hage b kept answer
  have hanswer : answer = .next ((b.verifyHome c failing).finish) := by
    refine (exec_verifyComplete t (State.attempt_commit hwriter hcommit (.inl hphase)) hstep hfails).trans ?_
    have hverified : b.verified failing = b.verifyHome c failing := by
      unfold State.verified
      rw [show b.writer = none from hwriter, show b.commit = some c from hcommit]
      dsimp only
      rw [hphase]
    rw [hverified]
  rw [hanswer]
  unfold State.verifyHome
  refine ⟨fun hnone => ?_, fun hsome hfew => ?_, fun hsome hmany => ?_⟩
  · rw [if_pos hnone, State.commitSucceeded_eq (s := b) hstate hfields fun _ => hage hnone]
  · have hfew : c.attempt.number ≤ b.params.retries := hfew
    rw [if_neg hsome, if_pos hfew, State.setAttempt_commit (s := b) hwriter hcommit, Attempt.again_eq]
    rfl
  · rw [if_neg hsome, if_neg (by show ¬c.attempt.number ≤ s.params.retries; omega)]
    unfold State.startRetirement
    refine ⟨fun hnospare => ?_, fun hspare hmissing => ?_, fun hfree hnew hfull hready => ?_⟩
    · rw [show b.remap.freeSpare [] = none from (Remap.freeSpare_none_iff s.remap []).2 hnospare]
      dsimp only
      unfold State.noSpareAtStart
      rw [State.pinnedOutcome_eq (s := b) hstate]
    · obtain ⟨q, hq⟩ := Option.ne_none_iff_exists'.1 fun hnone => hspare ((Remap.freeSpare_none_iff s.remap []).1 hnone)
      have hsome : ¬~~~(b.slot c.slot).present = 0 := fun h => hmissing <| by
        have hpresent : (b.slot c.slot).present = fullSet := by
          have hnot := congrArg (fun x : OffsetSet => ~~~x) h
          simpa [fullSet] using hnot
        exact hpresent
      rw [show b.remap.freeSpare [] = some q from hq]
      dsimp only
      rw [if_neg hsome]
      rfl
    · intro served
      have hfree' : s.remap.freeSpare [] = some sp := hnew ▸ Remap.freeSpare_of_lowestFree hfree
      have hnone : ~~~(b.slot c.slot).present = 0 := by
        rw [show (b.slot c.slot).present = fullSet from hfull]
        decide
      have hkept : kept.backfill = 0 := hnone
      have hpresent : (s.slot c.slot).present ||| kept.backfill = fullSet := by rw [hkept, hfull]; rfl
      rw [show b.remap.freeSpare [] = some sp from hfree']
      dsimp only
      rw [if_pos hnone]
      have hcomplete := State.completeBackfill_eq { b with commit := some kept } (c := kept) (sp := sp) hstate hfree
        (hpresent.symm ▸ hready)
      refine congrArg (fun m => Host.Outcome.next (State.finish m)) (hcomplete.trans ?_)
      have himage : (s.slot c.slot).filled (fun k => b.chip.read kept.attempt.target k) kept.backfill = (s.slot c.slot).image := by
        rw [hkept, Slot.filled_empty]
      show State.loadsSpare (State.modSlot (State.fillDone { b with commit := some kept } c.slot
        ((s.slot c.slot).filled (fun k => b.chip.read kept.attempt.target k) kept.backfill)
        ((s.slot c.slot).present ||| kept.backfill)) c.slot _) kept sp = _
      rw [himage, hpresent]
      rfl

end Sys2Proof.Machine

/-! PROOF. Retirements, map writes and MAP_FORMAT: the verifies on a spare and on a map copy (R109 to R116, R130 to R136). -/

namespace Sys2Proof.Machine

variable {s u : State} {i : SlotIx} {p : PortId} {acc : Access} {c : CommitRecord}

/-! ### The verify on a spare -/

theorem Remap.otherCopy_eq (r : Remap) : r.otherCopy = if r.copy = some 0 then 1 else 0 := by
  unfold Remap.otherCopy
  cases r.copy with
  | none => rfl
  | some k =>
    revert k
    decide

theorem Remap.proposed_live (r : Remap) (c : CommitRecord) : (r.proposed c.tentative c.newlyDead).live = r.proposedLive c := by
  unfold Remap.proposed Remap.proposedLive
  cases c.tentative <;> rfl

theorem State.startMapWrite_eq (s : State) (c : CommitRecord) (purpose : MapPurpose) : s.startMapWrite c purpose = s.writesMap c purpose := by
  unfold State.startMapWrite State.writesMap
  dsimp only
  rw [Remap.otherCopy_eq, mapOrder_eq, Remap.proposed_live]
  rfl

theorem Remap.entry_none {r : Remap} {page : Nat} (h : ∀ x ∈ r.live, x.page ≠ page) : r.entry page = none :=
  List.find?_eq_none.2 fun x hx => by simpa using h x hx

/-- Pages stand once among the live entries, so an entry of a page is the entry found. -/
theorem Remap.entry_some {r : Remap} {e : RemapEntry} (hpages : (r.live.map RemapEntry.page).Nodup) (he : e ∈ r.live) :
    r.entry e.page = some e := by
  unfold Remap.entry
  generalize r.live = l at hpages he
  induction l with
  | nil => nomatch he
  | cons x l ih =>
    obtain ⟨hx, hl⟩ := List.nodup_cons.1 hpages
    rcases List.mem_cons.1 he with rfl | he
    · exact List.find?_cons_of_pos (by simp)
    · have hne : x.page ≠ e.page := fun h => hx (h ▸ List.mem_map_of_mem he)
      rw [List.find?_cons_of_neg (by simpa using hne)]
      exact ih hl he

theorem State.translate_none {page : Nat} (h : s.remap.entry page = none) : s.translate page = page := by
  unfold State.translate
  rw [h]

theorem State.translate_some {page : Nat} {e : RemapEntry} (h : s.remap.entry page = some e) :
    s.translate page = sparePage s.capacity e.spare := by
  unfold State.translate
  rw [h]

/-- A spare out of attempts dies: the next free one is loaded, or the dead marks are written (R112, R115). -/
theorem State.spareDeath_next {sp next : SpareIx} {failing : OffsetSet} (h : s.remap.lowestFree (c.newlyDead ++ [sp]) next) :
    s.spareDeath c sp failing = (s.append .spareDead (some c.page) (some (sparePage s.capacity sp)) (some (card failing))
      (BitVec.ofNat 8 sp.val)).loadsSpare { c with newlyDead := c.newlyDead ++ [sp] } next := by
  have hfree : s.remap.freeSpare (c.newlyDead ++ [sp]) = some next := Remap.freeSpare_of_lowestFree h
  unfold State.spareDeath
  dsimp only [State.append]
  rw [hfree]
  exact State.spareSnapshot_eq _ _ next

theorem State.spareDeath_none {sp : SpareIx} {failing : OffsetSet} (h : s.remap.noneFree (c.newlyDead ++ [sp])) :
    s.spareDeath c sp failing = (s.append .spareDead (some c.page) (some (sparePage s.capacity sp)) (some (card failing))
      (BitVec.ofNat 8 sp.val)).writesMap { c with newlyDead := c.newlyDead ++ [sp] } .deadOnly := by
  have hfree : s.remap.freeSpare (c.newlyDead ++ [sp]) = none := (Remap.freeSpare_none_iff _ _).2 h
  unfold State.spareDeath
  dsimp only [State.append]
  rw [hfree]
  exact State.startMapWrite_eq _ _ .deadOnly

/-- Settles O42: the failing set and the attempt number decide between the map write, a re-attempt and the spare's death. -/
theorem verifyOnSpareDecides : Obligations.VerifyOnSpareDecides := by
  intro t worn s c failing sp next e hwriter hcommit hphase hspare hstep hfails hremap b count answer retired entered dead died
  have hanswer : answer = .next ((b.verifySpare c sp failing).finish) := by
    refine (exec_verifyComplete t (State.attempt_commit hwriter hcommit (.inr hphase)) hstep hfails).trans ?_
    have hverified : b.verified failing = b.verifySpare c sp failing := by
      unfold State.verified
      rw [show b.writer = none from hwriter, show b.commit = some c from hcommit]
      dsimp only
      rw [hphase, hspare]
    rw [hverified]
  rw [hanswer]
  unfold State.verifySpare
  refine ⟨fun hnone hpage => ?_, fun hnone he hpage => ?_, fun hsome hfew => ?_, fun hsome hmany => ⟨fun hnext => ?_, fun hnext => ?_⟩⟩
  · have hentry : b.remap.entry c.page = none := Remap.entry_none hpage
    rw [if_pos hnone]
    unfold State.spareSuccess
    dsimp only
    rw [hentry]
    dsimp only
    rw [State.translate_none hentry, State.startMapWrite_eq]
  · have hentry : b.remap.entry c.page = some e := hpage ▸ Remap.entry_some (r := s.remap) hremap.2.1 he
    rw [if_pos hnone]
    unfold State.spareSuccess
    dsimp only
    rw [hentry]
    dsimp only
    rw [State.translate_some hentry, State.startMapWrite_eq]
    rfl
  · have hfew : c.attempt.number ≤ b.params.retries := hfew
    rw [if_neg hsome, if_pos hfew, State.setAttempt_commit (s := b) hwriter hcommit, Attempt.again_eq]
    rfl
  · have hmany : ¬c.attempt.number ≤ b.params.retries := Nat.not_le.mpr hmany
    rw [if_neg hsome, if_neg hmany, State.spareDeath_next (s := b) hnext]
    rfl
  · have hmany : ¬c.attempt.number ≤ b.params.retries := Nat.not_le.mpr hmany
    rw [if_neg hsome, if_neg hmany, State.spareDeath_none (s := b) hnext]
    rfl

/-! ### The entry to DEGRADED, as a commit in flight sees it -/

theorem State.endLong_eq (s : State) (long : LongCommand) :
    s.endLong long = { s with mgmt := { s.mgmt with long := if s.mgmt.long = long then .none else s.mgmt.long } } := by
  unfold State.endLong
  split <;> rfl

theorem State.refuseWrites_ports (s : State) (reason : Reason) (detail : Detail) :
    ∃ a b, s.refuseWrites reason detail = { s with portA := a, portB := b } := by
  have hone : ∀ (m : State) (p : PortId), ∃ a b, State.refuseWrite reason detail m p = { m with portA := a, portB := b } := fun m p => by
    unfold State.refuseWrite State.answerError State.modPort
    split
    · cases p
      · exact ⟨_, m.portB, rfl⟩
      · exact ⟨m.portA, _, rfl⟩
    · exact ⟨m.portA, m.portB, rfl⟩
  obtain ⟨a, b, h⟩ := hone s .a
  obtain ⟨a', b', h'⟩ := hone (State.refuseWrite reason detail s .a) .b
  refine ⟨a', b', ?_⟩
  show State.refuseWrite reason detail (State.refuseWrite reason detail s .a) .b = _
  rw [h', h]

/-- Of the slots, the entry to DEGRADED but for an array timeout changes the deadlines alone. -/
theorem State.enterDegraded_slots (s : State) {cause : Cause} (h : cause ≠ .arrayTimeout) :
    (s.enterDegraded cause).slots = s.slots.map Slot.clearDeadlines ∧ (s.enterDegraded cause).ageList = s.ageList := by
  have hsteps : ∀ m : State, ((m.clearDeadlines.refuseWrites .storeFull .degraded).endLong .quiesce).slots =
      m.slots.map Slot.clearDeadlines ∧
      ((m.clearDeadlines.refuseWrites .storeFull .degraded).endLong .quiesce).ageList = m.ageList := fun m => by
    obtain ⟨a, b, hports⟩ := State.refuseWrites_ports m.clearDeadlines .storeFull .degraded
    rw [hports, State.endLong_eq, State.clearDeadlines_eq]
    exact ⟨rfl, rfl⟩
  cases cause with
  | arrayTimeout => exact absurd rfl h
  | mapInvalid => exact hsteps _
  | mapWriteFail => exact hsteps _

/-! ### The verify on a map copy -/

theorem State.verified_writer {w : MapWriter} (hwriter : s.writer = some w) (failing : OffsetSet) :
    s.verified failing = s.verifyMap w failing := by
  unfold State.verified
  rw [hwriter]

theorem State.verifyMap_commit (hcommit : s.commit = some c) (w : MapWriter) (failing : OffsetSet) : s.verifyMap w failing =
    if failing ≠ 0 ∧ w.attempt.number ≤ s.params.retries then s.setAttempt (w.attempt.again failing (mapOrder failing))
    else if failing = 0 then s.mapWriteSucceeded c w else s.mapWriteFailed c w failing := by
  unfold State.verifyMap
  rw [hcommit]

theorem State.verifyMap_format (hcommit : s.commit = none) (w : MapWriter) (failing : OffsetSet) : s.verifyMap w failing =
    if failing ≠ 0 ∧ w.attempt.number ≤ s.params.retries then s.setAttempt (w.attempt.again failing (mapOrder failing))
    else if failing = 0 then s.formatSucceeded w else s.formatFailed w failing := by
  unfold State.verifyMap
  rw [hcommit]

/-- The ending of a map write of a commit: the retirement's success, or the slot PINNED for want of a spare. -/
theorem State.mapEnding_eq (purpose : MapPurpose) (hstate : (s.slot c.slot).state = .committing) (hfields : (s.slot c.slot).fieldsOk)
    (hage : s.holds s.ageList .dirty) :
    (if purpose = .retire then s.commitSucceeded c else ((s.pin c.slot fullSet).logPinned c pinnedNoSpare).endCommit) =
      State.drainCheck (State.serveWaiting (State.dropsCommit (if purpose = .retire then (s.leavesCommit c.slot).recordsRecovery c
        else (s.pinnedWith c.slot fullSet).recordsPinned c pinnedNoSpare))) := by
  split
  · exact State.commitSucceeded_eq hstate hfields fun _ => hage
  · exact State.pinnedOutcome_eq hstate fullSet pinnedNoSpare

theorem State.mapWriteSucceeded_eq {w : MapWriter} (hpurpose : w.purpose = .retire ∨ w.purpose = .deadOnly) {m : State}
    (hm : (s.adopt c).makeCurrent w = m) : s.mapWriteSucceeded c w =
      if w.purpose = .retire then m.commitSucceeded c else ((m.pin c.slot fullSet).logPinned c pinnedNoSpare).endCommit := by
  unfold State.mapWriteSucceeded
  dsimp only
  rw [hm]
  rcases hpurpose with h | h <;> rw [h] <;> rfl

theorem State.mapWriteFailed_eq {w : MapWriter} {failing : OffsetSet} (hpurpose : w.purpose = .retire ∨ w.purpose = .deadOnly) {m : State}
    (hm : ((s.adopt c).append .mapWriteFail (some c.page) (some w.attempt.target) (some (card failing))
      w.purpose.failDetail).enterDegraded .mapWriteFail = m) : s.mapWriteFailed c w failing =
      if w.purpose = .retire then m.commitSucceeded c else ((m.pin c.slot fullSet).logPinned c pinnedNoSpare).endCommit := by
  unfold State.mapWriteFailed
  dsimp only
  rw [hm]
  rcases hpurpose with h | h <;> rw [h] <;> rfl

theorem MapPurpose.failDetail_eq {q : MapPurpose} (h : q = .retire ∨ q = .deadOnly) :
    q.failDetail = if q = .retire then 0x01 else 0x02 := by
  rcases h with rfl | rfl <;> rfl

/-- Settles O43: the table is adopted whatever the verify gives in the end; only a success makes the copy current. -/
theorem verifyOnMapCopyEndsTheWrite : Obligations.VerifyOnMapCopyEndsTheWrite := by
  intro t worn s c failing w hwriter hcommit hstep hfails hfields hstate hpurpose hage b table ended answer
  have hanswer : answer = .next ((b.verifyMap w failing).finish) := by
    refine (exec_verifyComplete t (State.attempt_writer hwriter (.inl (by rw [hcommit]; nofun))) hstep hfails).trans ?_
    rw [State.verified_writer (s := b) hwriter]
  have hending : ∀ m : State, (∀ j, (m.slot j).state = (s.slot j).state) → (m.slot c.slot).fieldsOk → m.ageList = s.ageList →
      Host.Outcome.next (State.finish (if w.purpose = .retire then m.commitSucceeded c
        else ((m.pin c.slot fullSet).logPinned c pinnedNoSpare).endCommit)) = ended m := fun m hstates hok hlist =>
    congrArg (fun m => Host.Outcome.next (State.finish m)) (State.mapEnding_eq w.purpose ((hstates c.slot).trans hstate) hok
      (by rw [hlist]; exact ⟨hage.1, fun j => by rw [hstates]; exact hage.2 j⟩))
  rw [hanswer, State.verifyMap_commit (s := b) hcommit]
  refine ⟨fun hnone => ?_, fun hsome hfew => ?_, fun hsome hmany => ?_⟩
  · rw [if_neg fun h => h.1 hnone, if_pos hnone]
    have hadopted : (b.adopt c).makeCurrent w = { b with remap := { table with copy := some w.copy, sequence := w.sequence } } := by
      rw [State.adopt_eq]
      rfl
    rw [State.mapWriteSucceeded_eq hpurpose hadopted]
    exact hending { b with remap := { table with copy := some w.copy, sequence := w.sequence } } (fun _ => rfl) hfields rfl
  · have hfew : w.attempt.number ≤ b.params.retries := hfew
    rw [if_pos ⟨hsome, hfew⟩, State.setAttempt_writer (s := b) hwriter, Attempt.again_eq, mapOrder_eq]
  · have hmany : ¬w.attempt.number ≤ b.params.retries := Nat.not_le.mpr hmany
    rw [if_neg fun h => hmany h.2, if_neg hsome]
    have hslots := State.enterDegraded_slots (State.append { b with remap := table } .mapWriteFail (some c.page) (some w.attempt.target)
      (some (card failing)) (if w.purpose = .retire then 0x01 else 0x02)) (cause := .mapWriteFail) nofun
    have hfailed : ((b.adopt c).append .mapWriteFail (some c.page) (some w.attempt.target) (some (card failing))
        w.purpose.failDetail).enterDegraded .mapWriteFail = (State.append { b with remap := table } .mapWriteFail (some c.page)
          (some w.attempt.target) (some (card failing)) (if w.purpose = .retire then 0x01 else 0x02)).enterDegraded .mapWriteFail := by
      rw [State.adopt_eq, MapPurpose.failDetail_eq hpurpose]
      rfl
    rw [State.mapWriteFailed_eq hpurpose hfailed]
    obtain ⟨hslots, hlist⟩ := hslots
    have hslot : ∀ j, State.slot (State.enterDegraded (State.append { b with remap := table } .mapWriteFail (some c.page)
        (some w.attempt.target) (some (card failing)) (if w.purpose = .retire then 0x01 else 0x02)) .mapWriteFail) j =
        (s.slot j).clearDeadlines := fun j => by
      unfold State.slot
      rw [hslots, Vector.getElem_map]
      rfl
    obtain ⟨hpage, hsince, -⟩ := hfields
    exact hending _ (fun j => by rw [hslot]; rfl) (by rw [hslot]; exact ⟨hpage, hsince, fun _ => ⟨rfl, rfl⟩⟩) hlist

/-! ### MAP_FORMAT -/

theorem State.endLong_quiet {long : LongCommand} (h : s.mgmt.long = long ∨ s.mgmt.long = .none) :
    s.endLong long = { s with mgmt := { s.mgmt with long := .none } } := by
  rw [State.endLong_eq]
  have hlong : (if s.mgmt.long = long then LongCommand.none else s.mgmt.long) = .none := by
    split
    · rfl
    · exact h.resolve_left ‹_›
  rw [hlong]

/-- The entry to RUNNING changes slots, their collections and the store record. -/
theorem State.enterRunning_slots (s : State) : OnlySlots { s with store :=
    { s.store with state := .running, cause := none, origin := none, phase := none, holdDeadline := none } } s.enterRunning :=
  ((OnlySlots.foldl (fun s i => s.modSlot_frame i _) _ _).trans (OnlySlots.foldl State.fullPage_frame _ _)).trans
    (State.highWater_frame _)

theorem State.enterRunning_mgmt (s : State) : s.enterRunning.mgmt = s.mgmt :=
  (State.enterRunning_slots s).keeps (f := State.mgmt) fun _ => rfl

theorem State.withdrawAll_mgmt (s : State) (detail : Detail) : (s.withdrawAll detail).mgmt = s.mgmt := by
  rw [State.withdrawAll_frame s detail]

theorem State.enterDegraded_mgmt (s : State) (cause : Cause) : (s.enterDegraded cause).mgmt =
    { s.mgmt with long := if s.mgmt.long = .quiesce then .none else s.mgmt.long } := by
  have hsteps : ∀ m : State, ((m.clearDeadlines.refuseWrites .storeFull .degraded).endLong .quiesce).mgmt =
      { m.mgmt with long := if m.mgmt.long = .quiesce then .none else m.mgmt.long } := fun m => by
    obtain ⟨a, b, hports⟩ := State.refuseWrites_ports m.clearDeadlines .storeFull .degraded
    rw [hports, State.endLong_eq, State.clearDeadlines_eq]
  cases cause with
  | mapInvalid => exact hsteps _
  | mapWriteFail => exact hsteps _
  | arrayTimeout =>
    exact (State.withdrawAll_mgmt _ .arrayTimeout).trans (hsteps { s with store :=
      { s.store with state := .degraded, cause := some .arrayTimeout, origin := none, phase := none, holdDeadline := none } })

/-- Settles O44: the two writes of the format one after the other, and its three endings. -/
theorem formatRunsAndEnds : Obligations.FormatRunsAndEnds := by
  intro t worn s w failing d hcommit hpurpose hlong b c writer quiet answer verified
  have hwriters : format0Writer s.capacity = writer .format0 0 (some 1) (recordBytes [] 0 1) ∧
      format1Writer s.capacity = writer .format1 1 none (List.replicate 64 0xFF) := by
    unfold format0Writer format1Writer
    rw [mapOrder_eq]
    exact ⟨rfl, rfl⟩
  have hanswer : verified → answer = .next ((b.verifyMap w failing).finish) := fun ⟨hwriter, howner, hstep, hfails⟩ => by
    refine (exec_verifyComplete t (State.attempt_writer hwriter (.inr howner)) hstep hfails).trans ?_
    rw [State.verified_writer (s := b) hwriter]
  have hverify : verified → failing = 0 → answer = .next ((b.formatSucceeded w).finish) := fun h hnone => by
    rw [hanswer h, State.verifyMap_format (s := b) hcommit, if_neg fun h => h.1 hnone, if_pos hnone]
  refine ⟨fun hreset hidle hdegraded hcause => ?accepted, fun h hnone hformat => ?first, fun h hnone hformat => ?second,
    fun h hsome hfew => ?again, fun h hsome hmany => ?failed, fun hwriter howner hstep hdead hdue => ?timeout⟩
  case accepted =>
    have hpasses : s.refusal 14 [] false = none :=
      State.refusal_none_of s _ (by decide) rfl (by simp [State.refusesLong, hidle]) (by simp [argumentRefused])
        (by simp [State.stateRefuses, hdegraded, hcause]) (by simp)
    refine (exec_commandRow_passes t (code := 14) (args := []) hreset (by simp) hpasses).trans ?_
    refine congrArg (fun v => Host.Outcome.next (State.finish v)) ?_
    show (s.tick t).doMapFormat = _
    unfold State.doMapFormat
    rw [State.tick_capacity, hwriters.1]
    rfl
  case first =>
    rw [hverify h hnone]
    unfold State.formatSucceeded
    rw [hformat]
    dsimp only
    rw [show format1Writer b.capacity = _ from hwriters.2]
  case second =>
    rw [hverify h hnone]
    unfold State.formatSucceeded
    rw [hformat]
    refine congrArg (fun v => Host.Outcome.next (State.finish v)) (State.endLong_quiet ?_)
    rw [State.enterRunning_mgmt]
    exact hlong
  case again =>
    have hfew : w.attempt.number ≤ b.params.retries := hfew
    rw [hanswer h, State.verifyMap_format (s := b) hcommit, if_pos ⟨hsome, hfew⟩, State.setAttempt_writer (s := b) h.1, Attempt.again_eq,
      mapOrder_eq]
  case failed =>
    have hmany : ¬w.attempt.number ≤ b.params.retries := Nat.not_le.mpr hmany
    rw [hanswer h, State.verifyMap_format (s := b) hcommit, if_neg fun h => hmany h.2, if_neg hsome]
    refine congrArg (fun v => Host.Outcome.next (State.finish v)) ?_
    unfold State.formatFailed
    have hdetail : w.purpose.failDetail = 0x03 := by rcases hpurpose with h | h <;> rw [h] <;> rfl
    rw [hdetail]
    exact State.endLong_quiet hlong
  case timeout =>
    rw [exec_pollDeadlineExpiry t (State.attempt_writer hwriter (.inr howner)) hstep hdead, if_pos hdue, hcommit, hwriter]
    have hdegraded := State.enterDegraded_mgmt (c.append .arrayTimeout none (some w.attempt.target) none 0x03) .arrayTimeout
    refine congrArg (fun v => Host.Outcome.next (State.finish v)) ?_
    show State.endLong { ((c.append .arrayTimeout none (some w.attempt.target) none 0x03).enterDegraded .arrayTimeout).dropWriter with
      condition := .unsettled } .mapFormat = _
    generalize State.enterDegraded (c.append .arrayTimeout none (some w.attempt.target) none 0x03) .arrayTimeout = m at hdegraded ⊢
    refine State.endLong_quiet (s := { m.dropWriter with condition := .unsettled }) ?_
    show m.mgmt.long = .mapFormat ∨ m.mgmt.long = .none
    rw [hdegraded]
    show (if s.mgmt.long = .quiesce then LongCommand.none else s.mgmt.long) = _ ∨ (if s.mgmt.long = .quiesce then LongCommand.none else s.mgmt.long) = _
    split
    · exact .inr rfl
    · exact hlong

end Sys2Proof.Machine

/-! PROOF. The map record (R123 to R128): the tests on a copy in numbers, the record of a table read back, and the selection. -/

namespace Sys2Proof.Machine

variable {s u : State} {bytes : List Byte}

/-! ### The tests on a copy, in numbers -/

theorem noRepeat_iff (l : List Nat) : noRepeat l = true ↔ l.Nodup := by
  induction l with
  | nil => simp [noRepeat]
  | cons x l ih => simp [noRepeat, ih]

theorem nodup_map_range (f : Nat → Nat) (n : Nat) : ((List.range n).map f).Nodup ↔ ¬∃ k < n, ∃ j < k, f j = f k := by
  rw [List.Nodup, List.pairwise_map, List.pairwise_iff_getElem]
  constructor
  · rintro h ⟨k, hk, j, hj, heq⟩
    have hne := h j k (by rw [List.length_range]; omega) (by rwa [List.length_range]) hj
    rw [List.getElem_range, List.getElem_range] at hne
    exact hne heq
  · intro h j k _ hk hj heq
    rw [List.length_range] at hk
    rw [List.getElem_range, List.getElem_range] at heq
    exact h ⟨k, hk, j, hj, heq⟩

theorem noRepeat_map_range (f : Nat → Nat) (n : Nat) : (!noRepeat ((List.range n).map f)) = true ↔ ∃ k < n, ∃ j < k, f j = f k := by
  rw [Bool.not_eq_true', ← Bool.not_eq_true, noRepeat_iff, nodup_map_range, Classical.not_not]

/-- The byte of a copy at an offset, as a number. -/
def byteNat (bytes : List Byte) (k : Nat) : Nat := (bytes.getD k 0).toNat

/-- The page that an entry place names. -/
def placePage (bytes : List Byte) (k : Nat) : Nat := byteNat bytes (6 + 3 * k) + 256 * byteNat bytes (7 + 3 * k)

/-- The spare byte of an entry place. -/
def placeSpare (bytes : List Byte) (k : Nat) : Nat := byteNat bytes (8 + 3 * k)

theorem copyPlaces_eq (bytes : List Byte) (n : Nat) :
    copyPlaces bytes n = (List.range n).map fun k => (placePage bytes k, placeSpare bytes k) := by
  unfold copyPlaces
  refine List.map_congr_left fun k _ => ?_
  rw [word16_toNat]
  rfl

theorem word16_getLsbD (lo hi : Byte) (k : Nat) : (word16 lo hi).getLsbD k = (lo.toNat + 256 * hi.toNat).testBit k := by
  rw [← word16_toNat]
  rfl

theorem word16_eq_ofNat (lo hi : Byte) : word16 lo hi = BitVec.ofNat 16 (lo.toNat + 256 * hi.toNat) := by
  rw [← word16_toNat, BitVec.ofNat_toNat, BitVec.setWidth_eq]

/-- The tests in their order, each said of the numbers that the bytes give. -/
theorem rejection_eq (logical : Nat) (bytes : List Byte) : rejection logical bytes =
    if byteNat bytes 0 ≠ 0xA5 then some .marker
    else if byteNat bytes 54 + 256 * byteNat bytes 55 ≠ (crc16 (bytes.take 54)).toNat then some .crc
    else if 16 < byteNat bytes 3 then some .count
    else if ∃ k < byteNat bytes 3, 15 < placeSpare bytes k then some .spareRange
    else if ∃ k < byteNat bytes 3, ∃ j < k, placeSpare bytes j = placeSpare bytes k then some .spareTwice
    else if ∃ k < byteNat bytes 3, (byteNat bytes 4 + 256 * byteNat bytes 5).testBit (placeSpare bytes k) = true then some .liveDead
    else if ∃ k < byteNat bytes 3, ∃ j < k, placePage bytes j = placePage bytes k then some .pageTwice
    else if ∃ k < byteNat bytes 3, logical ≤ placePage bytes k then some .pageRange
    else none := by
  have hcount : copyCount bytes = byteNat bytes 3 := rfl
  have hmarker : copyByte bytes 0 ≠ 0xA5 ↔ byteNat bytes 0 ≠ 0xA5 := not_congr BitVec.toNat_inj.symm
  have hcrc : word16 (copyByte bytes 54) (copyByte bytes 55) ≠ crc16 (bytes.take 54) ↔
      byteNat bytes 54 + 256 * byteNat bytes 55 ≠ (crc16 (bytes.take 54)).toNat := by
    rw [Ne, ← BitVec.toNat_inj, word16_toNat]
    rfl
  have hany : ∀ f : Nat × Nat → Bool, ((List.range (byteNat bytes 3)).map fun k => (placePage bytes k, placeSpare bytes k)).any f = true ↔
      ∃ k < byteNat bytes 3, f (placePage bytes k, placeSpare bytes k) = true := fun f => by simp
  unfold rejection
  dsimp only
  rw [hcount, copyPlaces_eq, List.map_map, List.map_map]
  refine ite_of_iff hmarker rfl (ite_of_iff hcrc rfl (ite_of_iff Iff.rfl rfl (ite_of_iff ?_ rfl (ite_of_iff ?_ rfl (ite_of_iff ?_ rfl
    (ite_of_iff ?_ rfl (ite_of_iff ?_ rfl rfl)))))))
  · rw [hany]
    simp
  · exact noRepeat_map_range _ _
  · rw [hany]
    simp only [copyDead, word16_getLsbD]
    rfl
  · exact noRepeat_map_range _ _
  · rw [hany]
    simp

theorem copyTable_eq (bytes : List Byte) : copyTable bytes =
    { live := (List.range (byteNat bytes 3)).map fun k => { page := placePage bytes k, spare := Fin.ofNat 16 (placeSpare bytes k) }
      dead := BitVec.ofNat 16 (byteNat bytes 4 + 256 * byteNat bytes 5)
      sequence := BitVec.ofNat 16 (byteNat bytes 1 + 256 * byteNat bytes 2) } := by
  unfold copyTable copyDead copySequence
  rw [copyPlaces_eq, List.map_map, word16_eq_ofNat, word16_eq_ofNat]
  rfl

/-! ### The record of a table -/

section

variable (live : List RemapEntry) (dead sequence : BitVec 16)

theorem entryBytes_length (e : RemapEntry) : (entryBytes e).length = 3 := rfl

theorem flatMap_entryBytes_length : (live.flatMap entryBytes).length = 3 * live.length := by
  induction live with
  | nil => rfl
  | cons e live ih =>
    rw [List.flatMap_cons, List.length_append, entryBytes_length, ih, List.length_cons]
    omega

/-- The bytes of an entry stand together. -/
theorem flatMap_entryBytes_getElem? {k : Nat} (hk : k < live.length) {j : Nat} (hj : j < 3) :
    (live.flatMap entryBytes)[3 * k + j]? = (entryBytes live[k])[j]? := by
  induction live generalizing k with
  | nil => exact absurd hk (Nat.not_lt_zero k)
  | cons e live ih =>
    rw [List.flatMap_cons]
    cases k with
    | zero =>
      rw [List.getElem?_append_left (by rw [entryBytes_length]; omega)]
      simp
    | succ k =>
      rw [List.getElem?_append_right (by rw [entryBytes_length]; omega), entryBytes_length,
        show 3 * (k + 1) + j - 3 = 3 * k + j by omega]
      exact ih (Nat.lt_of_succ_lt_succ hk)

theorem recordHead_length : (recordHead live dead sequence).length = 54 := by
  simp [recordHead, le16]

theorem recordBytes_length : (recordBytes live dead sequence).length = 64 := by
  simp [recordBytes, recordHead_length, le16]

theorem recordBytes_take : (recordBytes live dead sequence).take 54 = recordHead live dead sequence := by
  unfold recordBytes
  dsimp only
  rw [List.append_assoc, List.take_left' (recordHead_length live dead sequence)]

theorem recordBytes_head {k : Nat} (hk : k < 54) : (recordBytes live dead sequence)[k]? =
    ([0xA5] ++ le16 sequence ++ [BitVec.ofNat 8 live.length] ++ le16 dead ++ live.flatMap entryBytes ++ List.replicate 48 0xFF)[k]? := by
  unfold recordBytes
  dsimp only
  rw [List.append_assoc, List.getElem?_append_left (by rw [recordHead_length]; exact hk), recordHead, List.getElem?_take_of_lt hk]

/-- The six bytes before the entry places. -/
theorem recordBytes_prefix {k : Nat} (hk : k < 6) : (recordBytes live dead sequence)[k]? =
    ([0xA5] ++ le16 sequence ++ [BitVec.ofNat 8 live.length] ++ le16 dead)[k]? := by
  rw [recordBytes_head live dead sequence (by omega), List.append_assoc, List.getElem?_append_left]
  simpa [le16] using hk

theorem recordBytes_place (hcount : live.length ≤ 16) {k : Nat} (hk : k < live.length) {j : Nat} (hj : j < 3) :
    (recordBytes live dead sequence)[6 + 3 * k + j]? = (entryBytes live[k])[j]? := by
  have hlen : ([0xA5] ++ le16 sequence ++ [BitVec.ofNat 8 live.length] ++ le16 dead : List Byte).length = 6 := rfl
  rw [recordBytes_head live dead sequence (by omega), List.append_assoc, List.getElem?_append_right (by omega), hlen,
    show 6 + 3 * k + j - 6 = 3 * k + j by omega, List.getElem?_append_left (by rw [flatMap_entryBytes_length]; omega)]
  exact flatMap_entryBytes_getElem? live hk hj

theorem recordBytes_crc {j : Nat} (hj : j < 2) :
    (recordBytes live dead sequence)[54 + j]? = (le16 (crc16 (recordHead live dead sequence)))[j]? := by
  unfold recordBytes
  dsimp only
  rw [List.append_assoc, List.getElem?_append_right (by rw [recordHead_length]; omega), recordHead_length, Nat.add_sub_cancel_left,
    List.getElem?_append_left hj]

end

theorem byteNat_of_getElem? {k : Nat} {b : Byte} (h : bytes[k]? = some b) : byteNat bytes k = b.toNat := by
  unfold byteNat
  rw [List.getD_eq_getElem?_getD, h]
  rfl

/-- The two bytes of a word give it back. -/
theorem le16_toNat (v : BitVec 16) : (v.setWidth 8 : Byte).toNat + 256 * ((v >>> 8).setWidth 8 : Byte).toNat = v.toNat := by
  simp [Nat.shiftRight_eq_div_pow]
  omega

/-- What the numbers of a record are. -/
theorem record_numbers {live : List RemapEntry} (dead sequence : BitVec 16) (hcount : live.length ≤ 16) :
    let r := recordBytes live dead sequence
    byteNat r 0 = 0xA5 ∧ byteNat r 1 + 256 * byteNat r 2 = sequence.toNat ∧ byteNat r 3 = live.length ∧
      byteNat r 4 + 256 * byteNat r 5 = dead.toNat ∧ byteNat r 54 + 256 * byteNat r 55 = (crc16 (r.take 54)).toNat ∧
      ∀ k (hk : k < live.length), placePage r k = live[k].page % 65536 ∧ placeSpare r k = live[k].spare.val := by
  intro r
  have hprefix := fun k (hk : k < 6) => recordBytes_prefix live dead sequence hk
  refine ⟨byteNat_of_getElem? (hprefix 0 (by decide)), ?_, ?_, ?_, ?_, fun k hk => ⟨?_, ?_⟩⟩
  · rw [byteNat_of_getElem? (hprefix 1 (by decide)), byteNat_of_getElem? (hprefix 2 (by decide))]
    exact le16_toNat sequence
  · rw [byteNat_of_getElem? (hprefix 3 (by decide))]
    exact Nat.mod_eq_of_lt (by omega)
  · rw [byteNat_of_getElem? (hprefix 4 (by decide)), byteNat_of_getElem? (hprefix 5 (by decide))]
    exact le16_toNat dead
  · rw [byteNat_of_getElem? (recordBytes_crc live dead sequence (j := 0) (by decide)),
      byteNat_of_getElem? (recordBytes_crc live dead sequence (j := 1) (by decide)), recordBytes_take]
    exact le16_toNat _
  · have hplace := fun j (hj : j < 3) => recordBytes_place live dead sequence hcount hk hj
    have hone : byteNat r (7 + 3 * k) = _ := byteNat_of_getElem? ((congrArg (fun n => r[n]?) (by omega)).trans (hplace 1 (by decide)))
    have hzero : byteNat r (6 + 3 * k) = _ := byteNat_of_getElem? (hplace 0 (by decide))
    unfold placePage
    rw [hzero, hone]
    exact (le16_toNat (BitVec.ofNat 16 live[k].page)).trans (BitVec.toNat_ofNat ..)
  · have htwo : byteNat r (8 + 3 * k) = _ := byteNat_of_getElem? ((congrArg (fun n => r[n]?) (by omega)).trans
      (recordBytes_place live dead sequence hcount hk (j := 2) (by decide)))
    unfold placeSpare
    rw [htwo]
    exact Nat.mod_eq_of_lt (by omega)

/-- Settles O47: the tests are read off the numbers, and a record's numbers are those of its table. -/
theorem mapRecordLoadsBackAsItsTable : Obligations.MapRecordLoadsBackAsItsTable := by
  intro r sequence logical bytes
  refine ⟨fun hok hlogical hpages => ?_, rejection_eq logical bytes, copyTable_eq bytes, rfl⟩
  obtain ⟨hcount, hpageOnce, hspareOnce, hlive⟩ := hok
  obtain ⟨hmarker, hsequence, hn, hdead, hcrc, hplaces⟩ := record_numbers r.dead sequence hcount
  intro record
  have hpage : ∀ k (hk : k < r.live.length), placePage record k = r.live[k].page := fun k hk => by
    have := hpages r.live[k] (List.getElem_mem hk)
    rw [(hplaces k hk).1, Nat.mod_eq_of_lt (by omega)]
  have hspare : ∀ k (hk : k < r.live.length), placeSpare record k = r.live[k].spare.val := fun k hk => (hplaces k hk).2
  refine ⟨recordBytes_length _ _ _, ?_, ?_, ?_⟩
  · have hfirst : record[0]? = some 0xA5 := recordBytes_prefix r.live r.dead sequence (by decide)
    refine Bool.eq_false_iff.2 fun hblank => ?_
    have := List.all_eq_true.1 hblank _ (List.mem_of_getElem? hfirst)
    exact absurd this (by decide)
  · rw [rejection_eq, hmarker, hcrc, hn, hdead, if_neg (by decide), if_neg (Classical.not_not.2 rfl), if_neg (by omega), if_neg, if_neg, if_neg,
      if_neg, if_neg]
    · rintro ⟨k, hk, h⟩
      have := hpages r.live[k] (List.getElem_mem hk)
      rw [hpage k hk] at h
      omega
    · rintro ⟨k, hk, j, hj, h⟩
      have hj' := Nat.lt_trans hj hk
      rw [hpage k hk, hpage j hj'] at h
      exact List.pairwise_iff_getElem.1 (List.pairwise_map.1 hpageOnce) j k hj' hk hj h
    · rintro ⟨k, hk, h⟩
      rw [hspare k hk] at h
      have hdeadBit := hlive r.live[k] (List.getElem_mem hk)
      rw [BitVec.getLsbD, h] at hdeadBit
      cases hdeadBit
    · rintro ⟨k, hk, j, hj, h⟩
      have hj' := Nat.lt_trans hj hk
      rw [hspare k hk, hspare j hj'] at h
      exact List.pairwise_iff_getElem.1 (List.pairwise_map.1 hspareOnce) j k hj' hk hj (Fin.ext h)
    · rintro ⟨k, hk, h⟩
      rw [hspare k hk] at h
      omega
  · rw [copyTable_eq, hn, hdead, hsequence, BitVec.ofNat_toNat, BitVec.setWidth_eq, BitVec.ofNat_toNat, BitVec.setWidth_eq]
    have hentries : (List.range r.live.length).map (fun k =>
        ({ page := placePage record k, spare := Fin.ofNat 16 (placeSpare record k) } : RemapEntry)) = r.live := by
      refine List.ext_getElem (by simp) fun k hk hk' => ?_
      rw [List.getElem_map, List.getElem_range, hpage k hk', hspare k hk']
      have hfin : Fin.ofNat 16 r.live[k].spare.val = r.live[k].spare := Fin.ext (Nat.mod_eq_of_lt r.live[k].spare.isLt)
      rw [hfin]
    rw [hentries]

/-! ### The selection -/

theorem isBlank_iff (hlength : bytes.length = 64) : isBlank bytes = true ↔ bytes = List.replicate 64 0xFF := by
  rw [List.eq_replicate_iff]
  simp [isBlank, hlength]

/-- A copy that is blank or passes every test describes a table (R125). -/
theorem readCopy_ok (hlength : bytes.length = 64) {logical : Nat} {table : CopyTable}
    (h : bytes = List.replicate 64 0xFF ∧ table = { live := [], dead := 0, sequence := 0 } ∨
      bytes ≠ List.replicate 64 0xFF ∧ rejection logical bytes = none ∧ table = copyTable bytes) :
    readCopy logical bytes = .ok table := by
  unfold readCopy
  rcases h with ⟨hblank, rfl⟩ | ⟨hblank, hpasses, rfl⟩
  · rw [if_pos ((isBlank_iff hlength).2 hblank)]
  · rw [if_neg fun h => hblank ((isBlank_iff hlength).1 h), hpasses]

theorem readCopy_error (hlength : bytes.length = 64) {logical : Nat} {r : Rejection} (hblank : bytes ≠ List.replicate 64 0xFF)
    (h : rejection logical bytes = some r) : readCopy logical bytes = .error r := by
  unfold readCopy
  rw [if_neg fun h => hblank ((isBlank_iff hlength).1 h), h]

/-- RESTART or RESUME ends (R152). -/
theorem State.endStart_eq (s : State) : (s.endLong .restart).endLong .resume =
    { s with mgmt := { s.mgmt with long := if s.mgmt.long = .restart ∨ s.mgmt.long = .resume then .none else s.mgmt.long } } := by
  rw [State.endLong_eq, State.endLong_eq]
  cases h : s.mgmt.long <;> simp

/-- The bytes of a copy at the end of the load. -/
theorem State.copyBytes_eq (s : State) (copy : Fin 2) : s.copyBytes copy =
    heldThenRead (if copy = 0 then (s.loader.getD { copy0 := [], copy1 := [] }).copy0
      else (s.loader.getD { copy0 := [], copy1 := [] }).copy1) fun k => s.chip.read (mapPage s.capacity copy) k := by
  unfold State.copyBytes State.heldBytes
  cases s.loader with
  | none => rw [show (Option.getD none ({ copy0 := [], copy1 := [] } : MapLoader)) = { copy0 := [], copy1 := [] } from rfl, ite_self]
  | some l => rfl

/-- Settles O46: the bytes of both copies, what each describes, and the selection. -/
theorem mapLoadSelectsACopy : Obligations.MapLoadSelectsACopy := by
  intro t worn s t0 t1 r0 r1 howner hheld b n l bytes usable bad ended loaded newer1 answer
  have hpages : 2 ≤ n := by
    have : 1 ≤ 2 ^ s.capacity.val := Nat.one_le_two_pow
    show 2 ≤ 256 * 2 ^ s.capacity.val
    omega
  have hl : l.copy0.length ≤ 64 ∧ l.copy1.length ≤ 64 := by
    cases hloader : s.loader with
    | none => exact ⟨by simp [l, hloader], by simp [l, hloader]⟩
    | some k =>
      have : l = k := by simp [l, hloader]
      exact this ▸ hheld k hloader
  have hfirst : (s.seeing t worn).copyBytes 0 = bytes (n - 2) :=
    (State.copyBytes_eq _ 0).trans (by
      show heldThenRead l.copy0 _ = (if n - 2 = n - 2 then l.copy0 else l.copy1) ++ _
      rw [if_pos rfl]
      rfl)
  have hsecond : (s.seeing t worn).copyBytes 1 = bytes (n - 1) :=
    (State.copyBytes_eq _ 1).trans (by
      have hpage : mapPage s.capacity 1 = n - 1 := by
        show n - 2 + 1 = n - 1
        omega
      show heldThenRead l.copy1 (fun k => s.reads worn (mapPage s.capacity 1) k) = _
      show _ = (if n - 1 = n - 2 then l.copy0 else l.copy1) ++ _
      rw [if_neg (by omega), hpage]
      rfl)
  have hlength : ∀ page, (bytes page).length = 64 := fun page =>
    heldThenRead_length _ (fun k => s.reads worn page k) (by
      show (if page = n - 2 then l.copy0 else l.copy1).length ≤ 64
      split
      · exact hl.1
      · exact hl.2)
  have hanswer : answer = ended (State.applySelection b (select (n - 18) (bytes (n - 2)) (bytes (n - 1)))) := by
    show Host.Outcome.next (if s.owner = .mapLoader then _ else _) = _
    rw [if_pos howner]
    have hend := State.endStart_eq (State.applySelection b (select (n - 18) ((s.seeing t worn).copyBytes 0) ((s.seeing t worn).copyBytes 1)))
    refine congrArg (fun m => Host.Outcome.next (State.finish m)) (hend.trans ?_)
    rw [hfirst, hsecond]
  have hok : ∀ page table, usable page table → readCopy (n - 18) (bytes page) = .ok table := fun page _ h =>
    readCopy_ok (hlength page) h
  have herror : ∀ page r, bad page r → readCopy (n - 18) (bytes page) = .error r := fun page _ h =>
    readCopy_error (hlength page) h.1 h.2
  have hnewer : newer t1.sequence t0.sequence = true ↔ newer1 := by simp [newer, newer1]
  have hother : mapPage s.capacity 1 = n - 1 ∧ mapPage s.capacity 0 = n - 2 := by
    refine ⟨?_, rfl⟩
    show n - 2 + 1 = n - 1
    omega
  rw [hanswer]
  unfold select
  refine ⟨fun h0 h1 hn => ?_, fun h0 h1 hn => ?_, fun h0 h1 => ?_, fun h0 h1 => ?_, fun h0 h1 => ?_⟩
  · rw [hok _ _ h0, hok _ _ h1]
    dsimp only
    rw [if_pos (hnewer.2 hn)]
    rfl
  · rw [hok _ _ h0, hok _ _ h1]
    dsimp only
    rw [if_neg fun h => hn (hnewer.1 h)]
    rfl
  · rw [hok _ _ h0, herror _ _ h1, ← hother.1]
    rfl
  · rw [herror _ _ h0, hok _ _ h1]
    rfl
  · rw [herror _ _ h0, herror _ _ h1]
    rfl

end Sys2Proof.Machine

/-! PROOF. RESUME (R21, R147), and the lists that a state's collections determine. -/

namespace Sys2Proof.Machine

variable {s u : State} {i : SlotIx} {p : PortId} {acc : Access}

/-- Two ascending lists with the same members are one list. -/
theorem ascending_eq {l m : List SlotIx} (hl : l.Pairwise (· < ·)) (hm : m.Pairwise (· < ·)) (h : ∀ i, i ∈ l ↔ i ∈ m) : l = m := by
  have hne : ∀ {l : List SlotIx}, l.Pairwise (· < ·) → l.Nodup := fun hp => hp.imp Fin.ne_of_lt
  exact ((List.perm_ext_iff_of_nodup (hne hl) (hne hm)).2 h).eq_of_pairwise (fun a b _ _ hab hba => absurd hab (Fin.lt_asymm hba)) hl hm

theorem finRange_ascending : (List.finRange 32).Pairwise (· < ·) := by decide

/-- The free list is the FREE slots in ascending order (R4, R5). -/
theorem State.freeList_eq (hcoll : s.collectionsOk) (hasc : s.freeAscending) :
    s.freeList = (List.finRange 32).filter fun i => decide ((s.slot i).state = .free) :=
  ascending_eq hasc (finRange_ascending.filter _) fun i => by
    rw [hcoll.1.2, List.mem_filter]
    simp

/-! ### RESUME -/

/-- A slot after RESUME: cut down to its dirty bytes, a CLEAN one emptied (R21). -/
def Slot.resumed (x : Slot) : Slot :=
  if x.state = .free then x else if x.state = .clean then x.emptied else { x with present := x.dirty }

/-- What the invalidation needs of a slot: its sets, nothing waiting on it, and no commit in flight on it. -/
structure Slot.resumable (x : Slot) : Prop where
  sets : x.setsOk
  idle : x.idle
  settled : x.state ≠ .committing

theorem State.invalidateSlot_clean (h : (s.slot i).resumable) (hc : (s.slot i).state = .clean) : s.invalidateSlot i =
    { s with recency := s.recency.erase i, freeList := insertAscending i s.freeList
             slots := s.slots.set i.val (s.slot i).emptied } := by
  obtain ⟨⟨-, -, hclean, -⟩, hidle, -⟩ := h
  have hslot : (s.modSlot i Slot.invalidate).slot i = { s.slot i with present := (s.slot i).present &&& (s.slot i).dirty } :=
    State.slot_modSlot_same s i _
  have hdirty := hclean hc
  have hfree := State.freeSlot_of_clean (s := s.modSlot i Slot.invalidate) (i := i) (by rw [hslot]; exact hc)
  unfold State.invalidateSlot
  rw [if_neg (by rw [hc]; nofun), State.releaseIfEmpty_of_clean (by rw [hslot]; exact hc) (by rw [hslot]; simp [hdirty])
    (by rw [hslot]; exact hdirty) (by rw [hslot]; exact hidle), hfree, hslot]
  simp [State.modSlot, State.setSlot, Vector.set_set, Slot.emptied]

theorem State.invalidateSlot_dirty (h : (s.slot i).resumable) (hf : (s.slot i).state ≠ .free) (hc : (s.slot i).state ≠ .clean) :
    s.invalidateSlot i = s.setSlot i { s.slot i with present := (s.slot i).dirty } := by
  obtain ⟨⟨hsub, -, -, hdirty⟩, -, hcommit⟩ := h
  have hcut : (s.slot i).invalidate = { s.slot i with present := (s.slot i).dirty } := by
    unfold Slot.invalidate
    rw [BitVec.and_comm, hsub]
  have hsome : (s.slot i).dirty ≠ 0 := hdirty (by cases hx : (s.slot i).state <;> simp_all)
  unfold State.invalidateSlot
  rw [if_neg hf, State.modSlot_eq, hcut]
  refine if_neg fun hempty => hsome ?_
  have := hempty.2.2.1
  rwa [State.slot_setSlot_same] at this

theorem State.collectionsOk_setSlot (h : s.collectionsOk) (i : SlotIx) {y : Slot} (hy : y.state = (s.slot i).state) :
    (s.setSlot i y).collectionsOk :=
  State.modSlot_collectionsOk (f := fun _ => y) h i hy

theorem State.freeSlot_ascending (hcoll : s.collectionsOk) (hasc : s.freeAscending) (hc : (s.slot i).state = .clean) :
    (s.freeSlot i).freeAscending := by
  rw [State.freeSlot_of_clean hc]
  refine insertAscending_ascending (fun hi => ?_) hasc
  have := (hcoll.1.2 i).1 hi
  rw [hc] at this
  cases this

/-- A state on the way through the invalidation of a list of slots. -/
structure Resuming (s : State) (l : List SlotIx) (v : State) : Prop where
  frame : OnlySlots s v
  coll : v.collectionsOk
  asc : v.freeAscending
  slot : ∀ j, v.slot j = if j ∈ l then (s.slot j).resumed else s.slot j
  age : v.ageList = s.ageList
  pinned : v.pinned = s.pinned
  queue : v.queue = s.queue

theorem Resuming.step {l : List SlotIx} {v : State} (h : Resuming s l v) (hi : i ∉ l) (hx : (s.slot i).resumable) :
    Resuming s (l ++ [i]) (v.invalidateSlot i) := by
  have hvi : v.slot i = s.slot i := by rw [h.slot, if_neg hi]
  have hslot : ∀ m : State, m.slot i = (s.slot i).resumed → (∀ j, i ≠ j → m.slot j = v.slot j) →
      ∀ j, m.slot j = if j ∈ l ++ [i] then (s.slot j).resumed else s.slot j := fun m hsame hother j => by
    by_cases hj : i = j
    · subst hj
      rw [hsame, if_pos (by simp)]
    · rw [hother j hj, h.slot]
      exact ite_of_iff (by simp [Ne.symm hj]) rfl rfl
  by_cases hf : (v.slot i).state = .free
  · have hsame : v.invalidateSlot i = v := if_pos hf
    rw [hsame]
    exact { h with slot := hslot v (by rw [hvi, Slot.resumed, if_pos (hvi ▸ hf)]) fun _ _ => rfl }
  by_cases hc : (v.slot i).state = .clean
  · have hfreed := State.invalidateSlot_clean (s := v) (hvi ▸ hx) hc
    have hfree : v.invalidateSlot i = v.freeSlot i := hfreed.trans (State.freeSlot_of_clean hc).symm
    refine { frame := h.frame.trans (v.invalidateSlot_frame i), coll := ?_, asc := ?_, slot := hslot _ ?_ ?_, age := ?_, pinned := ?_, queue := ?_ }
    · exact hfree ▸ State.freeSlot_collectionsOk h.coll i
    · exact hfree ▸ State.freeSlot_ascending h.coll h.asc hc
    · rw [hfree, State.slot_freeSlot_same, hvi, Slot.resumed, if_neg (hvi ▸ hf), if_pos (hvi ▸ hc)]
    · intro j hj
      rw [hfreed]
      exact State.slot_setSlot_ne _ _ hj
    · rw [hfreed]
      exact h.age
    · rw [hfreed]
      exact h.pinned
    · rw [hfreed]
      exact h.queue
  · have hcut := State.invalidateSlot_dirty (s := v) (hvi ▸ hx) hf hc
    refine { frame := h.frame.trans (v.invalidateSlot_frame i), coll := ?_, asc := ?_, slot := hslot _ ?_ ?_, age := ?_, pinned := ?_, queue := ?_ }
    · rw [hcut]
      exact State.collectionsOk_setSlot h.coll i rfl
    · rw [hcut]
      exact h.asc
    · rw [hcut, State.slot_setSlot_same, hvi, Slot.resumed, if_neg (hvi ▸ hf), if_neg (hvi ▸ hc)]
    · intro j hj
      rw [hcut]
      exact State.slot_setSlot_ne _ _ hj
    · rw [hcut]
      exact h.age
    · rw [hcut]
      exact h.pinned
    · rw [hcut]
      exact h.queue

theorem Resuming.foldl (hx : ∀ i, (s.slot i).resumable) {l m : List SlotIx} {v : State} (hnodup : (l ++ m).Nodup)
    (h : Resuming s l v) : Resuming s (l ++ m) (m.foldl State.invalidateSlot v) := by
  induction m generalizing l v with
  | nil => rwa [List.append_nil]
  | cons i m ih =>
    have hi : i ∉ l := not_mem_of_nodup_append hnodup
    have := ih (l := l ++ [i]) (by rwa [List.append_assoc]) (h.step hi (hx i))
    rwa [List.append_assoc] at this

/-- Every slot invalidated: the CLEAN ones freed, the others cut down to their dirty bytes. -/
theorem State.foldl_invalidateSlot (hcoll : s.collectionsOk) (hasc : s.freeAscending) (hx : ∀ i, (s.slot i).resumable) :
    allSlots.foldl State.invalidateSlot s =
      { s with recency := []
               freeList := (List.finRange 32).filter fun i => decide ((s.slot i).state = .free ∨ (s.slot i).state = .clean)
               slots := s.slots.map Slot.resumed } := by
  have hstart : Resuming s [] s := { frame := OnlySlots.refl s, coll := hcoll, asc := hasc, slot := fun _ => rfl, age := rfl, pinned := rfl, queue := rfl }
  have hend := Resuming.foldl hx (by decide) hstart (m := allSlots)
  rw [List.nil_append] at hend
  generalize allSlots.foldl State.invalidateSlot s = v at hend
  have hslot : ∀ j, v.slot j = (s.slot j).resumed := fun j => by rw [hend.slot, if_pos (mem_allSlots j)]
  have hfree : ∀ j, (v.slot j).state = .free ↔ (s.slot j).state = .free ∨ (s.slot j).state = .clean := fun j => by
    rw [hslot]
    unfold Slot.resumed
    by_cases hf : (s.slot j).state = .free
    · simp [hf]
    · by_cases hc : (s.slot j).state = .clean
      · rw [if_neg hf, if_pos hc]
        exact ⟨fun _ => .inr hc, fun _ => rfl⟩
      · rw [if_neg hf, if_neg hc]
        exact ⟨fun h => .inl h, fun h => h.elim id fun h => absurd h hc⟩
  have hclean : ∀ j, (v.slot j).state ≠ .clean := fun j => by
    rw [hslot]
    unfold Slot.resumed
    by_cases hf : (s.slot j).state = .free
    · simp [hf]
    · by_cases hc : (s.slot j).state = .clean
      · rw [if_neg hf, if_pos hc]
        nofun
      · rw [if_neg hf, if_neg hc]
        exact hc
  refine hend.frame.eq (b := { s with recency := [], freeList := _, slots := _ }) rfl ?_ ?_ ?_ hend.age hend.pinned hend.queue
  · refine slots_ext fun j => ?_
    rw [Vector.getElem_map]
    exact hslot j
  · rw [State.freeList_eq hend.coll hend.asc]
    exact List.filter_congr fun j _ => decide_eq_decide.2 (hfree j)
  · exact List.eq_nil_iff_forall_not_mem.2 fun j hj => hclean j ((hend.coll.2.1.2 j).1 hj)

/-- Settles O58: the slots invalidated one by one, the port retaken and the hold begun. -/
theorem resumeInvalidatesCleanBytes : Obligations.ResumeInvalidatesCleanBytes := by
  intro t s hreset hquiesced hreleased hlong hcoll hasc hslots hcommit hcause hcommitOk
  have hpasses : s.refusal 6 [] false = none :=
    State.refusal_none_of s _ (by decide) rfl (by simp [State.refusesLong, hlong]) (by simp [argumentRefused])
      (by simp [State.stateRefuses, hquiesced, hreleased]) (by simp)
  refine (exec_commandRow_passes t (code := 6) (args := []) hreset (by simp) hpasses).trans ?_
  refine congrArg (fun v => Host.Outcome.next (State.finish v)) ?_
  have hresumable : ∀ i, (s.slot i).resumable := fun i =>
    { sets := (hslots i).1, idle := (hslots i).2
      settled := fun h => by
        have := (hcommitOk i).1 h
        rw [hcommit] at this
        cases this }
  show (s.tick t).doResume = _
  unfold State.doResume
  dsimp only
  rw [State.foldl_invalidateSlot hcoll hasc hresumable
    (s := { s.tick t with mgmt := { (s.tick t).mgmt with long := .resume }, driven := true, condition := .unsettled })]
  unfold State.beginHold State.respond
  dsimp only [State.tick]
  rw [← hcause]
  rfl

end Sys2Proof.Machine

/-! PROOF. The withdrawal of every request not yet granted, as one explicit next state (R19, R20, R34, R98). -/

namespace Sys2Proof.Machine

variable {s u v : State} {i : SlotIx} {p q : PortId} {acc : Access} {detail : Detail}

/-! ### One request withdrawn -/

/-- A port with its outstanding access, if any, answered ARRAY_UNAVAILABLE (R34). -/
def HostPort.unavailable (h : HostPort) (now : Time) (detail : Detail) : HostPort :=
  match h.access with
  | some acc => h.refusing now acc .arrayUnavailable detail
  | none => h

theorem HostPort.unavailable_twice (h : HostPort) (now now' : Time) (detail detail' : Detail) :
    (h.unavailable now detail).unavailable now' detail' = h.unavailable now detail := by
  unfold HostPort.unavailable
  cases hacc : h.access with
  | none => simp only [hacc]
  | some acc => rfl

theorem State.answerError_unavailable (s : State) (p : PortId) (detail : Detail) :
    s.answerError p .arrayUnavailable detail = s.setPort p ((s.port p).unavailable s.now detail) := by
  unfold HostPort.unavailable
  cases hacc : (s.port p).access with
  | none => rw [State.answerError_idle s _ _ hacc, State.setPort_port]
  | some acc => exact State.answerError_refusing s detail hacc

theorem Slot.setWait_none {x : Slot} (h : x.wait p = none) : x.setWait p none = x := by
  cases x
  cases p <;> simp_all [Slot.setWait, Slot.wait]

/-- A port waiting on the slot leaves it, answered. -/
theorem State.refuseWaiter_eq (s : State) (i : SlotIx) (detail : Detail) (p : PortId) : s.refuseWaiter i detail p =
    (s.setSlot i ((s.slot i).setWait p none)).setPort p
      (if (s.slot i).wait p = none then s.port p else (s.port p).unavailable s.now detail) := by
  unfold State.refuseWaiter State.waitsOn
  cases hw : (s.slot i).wait p with
  | none =>
    rw [if_neg (by simp), if_pos rfl, Slot.setWait_none hw, State.setSlot_slot, State.setPort_port]
  | some w =>
    rw [if_pos (by simp), if_neg (by nofun), State.answerError_unavailable, State.modSlot_eq, State.port_setSlot]
    rfl

/-- A slot with its fill withdrawn and no port waiting (R19). -/
def Slot.unrequested (x : Slot) : Slot := { x with fillPending := none, waitA := none, waitB := none }

/-- The state with a slot's fill request withdrawn and its waiting ports answered. -/
def State.unrequest (s : State) (i : SlotIx) (detail : Detail) : State :=
  { s with requests := s.requests.erase (.fill i), slots := s.slots.set i.val (s.slot i).unrequested
           portA := if (s.slot i).waitA = none then s.portA else s.portA.unavailable s.now detail
           portB := if (s.slot i).waitB = none then s.portB else s.portB.unavailable s.now detail }

theorem State.withdrawRequest_fill (s : State) (i : SlotIx) (detail : Detail) :
    State.withdrawRequest detail s (.fill i) = (s.unrequest i detail).releaseIfEmpty i := by
  have hfill : s.withdrawFill i =
      { s with requests := s.requests.erase (.fill i), slots := s.slots.set i.val { s.slot i with fillPending := none } } := rfl
  have hslot : (s.withdrawFill i).slot i = { s.slot i with fillPending := none } := State.slot_setSlot_same s i _
  have hA := State.refuseWaiter_eq (s.withdrawFill i) i detail .a
  rw [hslot] at hA
  have hslotA : ((s.withdrawFill i).refuseWaiter i detail .a).slot i = { s.slot i with fillPending := none, waitA := none } := by
    rw [hA]
    exact State.slot_setSlot_same _ i _
  have hB := State.refuseWaiter_eq ((s.withdrawFill i).refuseWaiter i detail .a) i detail .b
  rw [hslotA] at hB
  refine congrArg (fun m => State.releaseIfEmpty m i) (hB.trans ?_)
  rw [hA, hfill]
  simp [State.setSlot, State.setPort, State.port, Slot.setWait, Slot.wait, State.unrequest, Slot.unrequested, Vector.set_set]
  rfl

theorem State.withdrawRequest_bypass (s : State) (p : PortId) (detail : Detail) : State.withdrawRequest detail s (.bypass p) =
    State.setPort { s with requests := s.requests.erase (.bypass p) } p ((s.port p).unavailable s.now detail) := by
  refine (State.answerError_unavailable _ p detail).trans ?_
  cases p <;> rfl

/-! ### All of them -/

/-- A port when the requests of a list are withdrawn: answered when it waits on one of them. -/
def State.refusedBy (s : State) (detail : Detail) (l : List Request) (p : PortId) : HostPort :=
  if .bypass p ∈ l ∨ ∃ i : SlotIx, (s.slot i).wait p ≠ none ∧ .fill i ∈ l then (s.port p).unavailable s.now detail else s.port p

/-- A state on the way through the withdrawal: the requests of a list withdrawn, those of another to come. -/
structure Withdrawing (detail : Detail) (s : State) (l m : List Request) (v : State) : Prop where
  frame : OnlyAccess s v
  requests : v.requests = m
  wait : ∀ p (i : SlotIx), (v.slot i).wait p = if .fill i ∈ l then none else (s.slot i).wait p
  port : ∀ p, v.port p = s.refusedBy detail l p

theorem OnlyAccess.now (h : OnlyAccess s u) : u.now = s.now := by
  rw [h]

theorem Slot.wait_emptied (x : Slot) (p : PortId) : x.emptied.wait p = none := by
  cases p <;> rfl

theorem Slot.wait_unrequested (x : Slot) (p : PortId) : x.unrequested.wait p = none := by
  cases p <;> rfl

/-- A release changes no wait: it is of a slot that no port waits on. -/
theorem State.releaseIfEmpty_wait (s : State) (i j : SlotIx) (p : PortId) : ((s.releaseIfEmpty i).slot j).wait p = (s.slot j).wait p := by
  unfold State.releaseIfEmpty
  dsimp only
  split
  · rename_i hempty
    by_cases hj : i = j
    · subst hj
      rw [State.slot_freeSlot_same, Slot.wait_emptied]
      obtain ⟨hA, hB⟩ := (Slot.unwaited_iff _).1 hempty.2.2.2.1
      cases p
      · exact hA.symm
      · exact hB.symm
    · unfold State.freeSlot
      rw [State.slot_modSlot_ne _ _ hj, State.slot_moveTo_ne _ _ hj]
  · rfl

theorem OnlySlots.requests (h : OnlySlots s u) : u.requests = s.requests := h.keeps (f := State.requests) fun _ => rfl

theorem State.port_unrequest (s : State) (i : SlotIx) (detail : Detail) (p : PortId) : (s.unrequest i detail).port p =
    if (s.slot i).wait p = none then s.port p else (s.port p).unavailable s.now detail := by
  cases p <;> rfl

theorem State.slot_unrequest (s : State) (i : SlotIx) (detail : Detail) (j : SlotIx) :
    (s.unrequest i detail).slot j = if i = j then (s.slot i).unrequested else s.slot j :=
  State.slot_setSlot s i j _

/-- What a port has become when one more request is withdrawn. -/
theorem State.refusedBy_append (s : State) (detail : Detail) (l : List Request) (r : Request) (p : PortId) :
    s.refusedBy detail (l ++ [r]) p = if r = .bypass p ∨ ∃ i : SlotIx, (s.slot i).wait p ≠ none ∧ r = .fill i
      then (s.refusedBy detail l p).unavailable s.now detail else s.refusedBy detail l p := by
  unfold State.refusedBy
  have hsplit : (.bypass p ∈ l ++ [r] ∨ ∃ i : SlotIx, (s.slot i).wait p ≠ none ∧ .fill i ∈ l ++ [r]) ↔
      (r = .bypass p ∨ ∃ i : SlotIx, (s.slot i).wait p ≠ none ∧ r = .fill i) ∨
        (.bypass p ∈ l ∨ ∃ i : SlotIx, (s.slot i).wait p ≠ none ∧ .fill i ∈ l) := by
    simp only [List.mem_append, List.mem_singleton, and_or_left, exists_or, eq_comm (a := r)]
    exact or_or_or_comm.trans or_comm
  by_cases hnew : r = .bypass p ∨ ∃ i : SlotIx, (s.slot i).wait p ≠ none ∧ r = .fill i
  · rw [if_pos (hsplit.2 (.inl hnew)), if_pos hnew]
    split
    · rw [HostPort.unavailable_twice]
    · rfl
  · rw [if_neg hnew]
    exact ite_of_iff (hsplit.trans (or_iff_right hnew)) rfl rfl

theorem Withdrawing.step {l m : List Request} {r : Request} (h : Withdrawing detail s l (r :: m) v) (hr : r ∉ l) :
    Withdrawing detail s (l ++ [r]) m (State.withdrawRequest detail v r) := by
  have herase : v.requests.erase r = m := by rw [h.requests, List.erase_cons_head]
  cases r with
  | bypass q =>
    refine { frame := h.frame.trans (State.withdrawRequest_frame detail v _), requests := ?_, wait := ?_, port := fun p => ?_ }
    · rw [State.withdrawRequest_bypass]
      cases q <;> exact herase
    · intro p i
      rw [State.withdrawRequest_bypass, State.slot_setPort]
      exact (h.wait p i).trans (ite_of_iff (by simp) rfl rfl)
    · rw [State.withdrawRequest_bypass, State.refusedBy_append]
      by_cases hp : q = p
      · subst hp
        rw [State.port_setPort_same, if_pos (.inl rfl), h.port, h.frame.now]
      · rw [State.port_setPort_ne _ _ hp, if_neg (by simp [hp])]
        exact h.port p
  | fill i =>
    have hsame := State.releaseIfEmpty_frame (v.unrequest i detail) i
    refine { frame := h.frame.trans (State.withdrawRequest_frame detail v _), requests := ?_, wait := fun p j => ?_, port := fun p => ?_ }
    · rw [State.withdrawRequest_fill, hsame.requests]
      exact herase
    · rw [State.withdrawRequest_fill, State.releaseIfEmpty_wait, State.slot_unrequest]
      by_cases hj : i = j
      · subst hj
        rw [if_pos rfl, if_pos (by simp), Slot.wait_unrequested]
      · rw [if_neg hj, h.wait]
        exact ite_of_iff (by simp [Ne.symm hj]) rfl rfl
    · rw [State.withdrawRequest_fill, hsame.port, State.port_unrequest, State.refusedBy_append, h.wait, if_neg hr, h.port, h.frame.now]
      rw [← ite_not]
      exact ite_of_iff (by simp) rfl rfl

theorem Withdrawing.foldl {l m : List Request} (hnodup : (l ++ m).Nodup) (h : Withdrawing detail s l m v) :
    Withdrawing detail s (l ++ m) [] (m.foldl (State.withdrawRequest detail) v) := by
  induction m generalizing l v with
  | nil => rwa [List.append_nil]
  | cons r m ih =>
    have hr : r ∉ l := not_mem_of_nodup_append hnodup
    have := ih (l := l ++ [r]) (by rwa [List.append_assoc]) (h.step hr)
    rwa [List.append_assoc] at this

/-- The withdrawal answers the ports that wait on a request and empties the list. -/
theorem State.withdrawAll_withdrawing (s : State) (detail : Detail) (hnodup : s.requests.Nodup) :
    Withdrawing detail s s.requests [] (s.withdrawAll detail) := by
  have hstart : Withdrawing detail s [] s.requests s :=
    { frame := OnlyAccess.refl s, requests := rfl, wait := fun _ _ => rfl, port := fun p => (if_neg (by simp)).symm }
  exact hstart.foldl (l := []) (by rwa [List.nil_append])

theorem HostPort.unavailable_some {h : HostPort} (hacc : h.access = some acc) (now : Time) (detail : Detail) :
    h.unavailable now detail = h.refusing now acc .arrayUnavailable detail := by
  unfold HostPort.unavailable
  rw [hacc]

/-- A port whose wait stands in the request list is answered by the withdrawal. -/
theorem State.refusedBy_bypass (hin : .bypass p ∈ s.requests) (hacc : (s.port p).access = some acc) :
    s.refusedBy detail s.requests p = (s.port p).refusing s.now acc .arrayUnavailable detail :=
  (if_pos (.inl hin)).trans (HostPort.unavailable_some hacc _ _)

theorem State.refusedBy_fill (hwait : s.waitOk p) (hwaited : (s.port p).waited = some i) (hin : .fill i ∈ s.requests)
    (hacc : (s.port p).access = some acc) :
    s.refusedBy detail s.requests p = (s.port p).refusing s.now acc .arrayUnavailable detail :=
  (if_pos (.inr ⟨i, by rw [hwait i, if_pos hwaited, hacc]; nofun, hin⟩)).trans (HostPort.unavailable_some hacc _ _)

/-! ### The state after it -/

/-- A slot that the withdrawal of these requests leaves with nothing. -/
def State.leftEmpty (s : State) (l : List Request) (i : SlotIx) : Bool :=
  decide (.fill i ∈ l) && decide ((s.slot i).present = 0 ∧ (s.slot i).dirty = 0)

/-- A slot after the withdrawal of these requests. -/
def State.withdrawnSlot (s : State) (l : List Request) (i : SlotIx) : Slot :=
  if s.leftEmpty l i then (s.slot i).emptied else if .fill i ∈ l then (s.slot i).unrequested else s.slot i

/-- The slots and collections on the way through the withdrawal. -/
structure Releasing (s : State) (l : List Request) (v : State) : Prop where
  slot : ∀ i : SlotIx, v.slot i = s.withdrawnSlot l i
  coll : v.collectionsOk
  asc : v.freeAscending
  recency : v.recency = s.recency.filter fun i => !s.leftEmpty l i
  age : v.ageList = s.ageList
  pinned : v.pinned = s.pinned
  queue : v.queue = s.queue

theorem State.leftEmpty_append (s : State) (l : List Request) (r : Request) (i : SlotIx) (h : r ≠ .fill i) :
    s.leftEmpty (l ++ [r]) i = s.leftEmpty l i := by
  unfold State.leftEmpty
  congr 1
  exact decide_eq_decide.2 (by simp [h.symm])

theorem State.withdrawnSlot_append (s : State) (l : List Request) (r : Request) (i : SlotIx) (h : r ≠ .fill i) :
    s.withdrawnSlot (l ++ [r]) i = s.withdrawnSlot l i := by
  unfold State.withdrawnSlot
  rw [State.leftEmpty_append s l r i h]
  exact ite_of_iff Iff.rfl rfl (ite_of_iff (by simp [h.symm]) rfl rfl)

theorem State.leftEmpty_of_not_mem {l : List Request} (h : .fill i ∉ l) : s.leftEmpty l i = false := by
  simp [State.leftEmpty, h]

theorem State.unrequest_collectionsOk (h : s.collectionsOk) (i : SlotIx) (detail : Detail) : (s.unrequest i detail).collectionsOk := by
  refine State.collectionsOk_congr h (fun j => ?_) fun c => by cases c <;> rfl
  rw [State.slot_unrequest]
  split
  · rename_i hj
    rw [← hj]
    rfl
  · rfl

theorem Releasing.bypass {l : List Request} (h : Releasing s l v) (p : PortId) :
    Releasing s (l ++ [.bypass p]) (State.withdrawRequest detail v (.bypass p)) := by
  have hslot : ∀ i : SlotIx, (State.withdrawRequest detail v (.bypass p)).slot i = v.slot i := fun i => by
    rw [State.withdrawRequest_bypass, State.slot_setPort]
    rfl
  have hlists : ∀ c, (State.withdrawRequest detail v (.bypass p)).collection c = v.collection c := fun c => by
    rw [State.withdrawRequest_bypass]
    cases p <;> cases c <;> rfl
  refine { slot := fun i => ?_, coll := State.collectionsOk_congr h.coll (fun i => by rw [hslot]) hlists, asc := ?_, recency := ?_, age := ?_,
           pinned := ?_, queue := ?_ }
  · rw [hslot, h.slot, State.withdrawnSlot_append s l (.bypass p) i (by simp)]
  · exact (congrArg (List.Pairwise (· < ·)) (hlists .free)).mpr h.asc
  · refine (hlists .clean).trans (h.recency.trans (List.filter_congr fun i _ => ?_))
    rw [State.leftEmpty_append s l (.bypass p) i (by simp)]
  · exact (hlists .dirty).trans h.age
  · exact (hlists .pinned).trans h.pinned
  · exact (hlists .sealed).trans h.queue

/-- A fill request withdrawn from a slot that holds something. -/
theorem Releasing.keep {l : List Request} (h : Releasing s l v) (hi : .fill i ∉ l) (hholds : ¬((s.slot i).present = 0 ∧ (s.slot i).dirty = 0)) :
    Releasing s (l ++ [.fill i]) (State.withdrawRequest detail v (.fill i)) := by
  have hvi : v.slot i = s.slot i := by rw [h.slot, State.withdrawnSlot, State.leftEmpty_of_not_mem hi, if_neg (by nofun), if_neg hi]
  have hsame : (v.unrequest i detail).releaseIfEmpty i = v.unrequest i detail := if_neg fun hempty => hholds (by
    have hslot : (v.unrequest i detail).slot i = (s.slot i).unrequested := by rw [State.slot_unrequest, if_pos rfl, hvi]
    rw [hslot] at hempty
    exact ⟨hempty.2.1, hempty.2.2.1⟩)
  have hempty : s.leftEmpty (l ++ [.fill i]) i = false := by
    unfold State.leftEmpty
    rw [decide_eq_false hholds, Bool.and_false]
  rw [State.withdrawRequest_fill, hsame]
  refine { slot := fun j => ?_, coll := State.unrequest_collectionsOk h.coll i detail, asc := h.asc, recency := ?_, age := h.age,
           pinned := h.pinned, queue := h.queue }
  · rw [State.slot_unrequest]
    by_cases hj : i = j
    · subst hj
      rw [if_pos rfl, hvi, State.withdrawnSlot, hempty, if_neg (by nofun), if_pos (by simp)]
    · rw [if_neg hj, h.slot, State.withdrawnSlot_append _ _ _ _ (by simp [hj])]
  · refine h.recency.trans (List.filter_congr fun j _ => ?_)
    by_cases hj : i = j
    · subst hj
      rw [hempty, State.leftEmpty_of_not_mem hi]
    · rw [State.leftEmpty_append _ _ _ _ (by simp [hj])]

/-- A fill request withdrawn from a CLEAN slot that holds nothing: the slot is released. -/
theorem Releasing.release {l : List Request} (h : Releasing s l v) (hi : .fill i ∉ l) (hclean : (s.slot i).state = .clean)
    (hholds : (s.slot i).present = 0 ∧ (s.slot i).dirty = 0) :
    Releasing s (l ++ [.fill i]) (State.withdrawRequest detail v (.fill i)) := by
  have hvi : v.slot i = s.slot i := by rw [h.slot, State.withdrawnSlot, State.leftEmpty_of_not_mem hi, if_neg (by nofun), if_neg hi]
  have hslot : (v.unrequest i detail).slot i = (s.slot i).unrequested := by rw [State.slot_unrequest, if_pos rfl, hvi]
  have hcoll := State.unrequest_collectionsOk h.coll i detail
  have hc : ((v.unrequest i detail).slot i).state = .clean := by rw [hslot]; exact hclean
  have hfree : (v.unrequest i detail).releaseIfEmpty i = (v.unrequest i detail).freeSlot i :=
    State.releaseIfEmpty_of_clean hc (by rw [hslot]; exact hholds.1) (by rw [hslot]; exact hholds.2) (by rw [hslot]; exact ⟨rfl, rfl, rfl⟩)
  have hempty : s.leftEmpty (l ++ [.fill i]) i = true := by
    unfold State.leftEmpty
    rw [decide_eq_true hholds, decide_eq_true (by simp), Bool.and_true]
  have hfreed := State.freeSlot_of_clean hc
  have hother : ∀ {f : State → List SlotIx}, (∀ m : State, ∀ a b c, f { m with recency := a, freeList := b, slots := c } = f m) →
      f ((v.unrequest i detail).freeSlot i) = f (v.unrequest i detail) := fun hf => by rw [hfreed, hf]
  rw [State.withdrawRequest_fill, hfree]
  refine { slot := fun j => ?_, coll := State.freeSlot_collectionsOk hcoll i, asc := State.freeSlot_ascending hcoll h.asc hc, recency := ?_,
           age := (hother (f := State.ageList) fun _ _ _ _ => rfl).trans h.age
           pinned := (hother (f := State.pinned) fun _ _ _ _ => rfl).trans h.pinned
           queue := (hother (f := State.queue) fun _ _ _ _ => rfl).trans h.queue }
  · by_cases hj : i = j
    · subst hj
      rw [State.slot_freeSlot_same, hslot, State.withdrawnSlot, hempty, if_pos rfl]
      rfl
    · rw [hfreed]
      refine (State.slot_setSlot_ne _ _ hj).trans ?_
      refine (State.slot_unrequest v i detail j).trans ?_
      rw [if_neg hj, h.slot, State.withdrawnSlot_append _ _ _ _ (by simp [hj])]
  · rw [hfreed]
    show v.recency.erase i = _
    rw [h.coll.2.1.1.erase_eq_filter, h.recency, List.filter_filter]
    refine List.filter_congr fun j _ => ?_
    by_cases hj : i = j
    · subst hj
      rw [hempty]
      simp
    · rw [State.leftEmpty_append _ _ _ _ (by simp [hj])]
      simp [Ne.symm hj]

theorem Releasing.foldl (hstate : ∀ i : SlotIx, .fill i ∈ s.requests → (s.slot i).present = 0 → (s.slot i).dirty = 0 → (s.slot i).state = .clean)
    {l m : List Request} (hsub : ∀ r ∈ m, r ∈ s.requests) (hnodup : (l ++ m).Nodup) (h : Releasing s l v) :
    Releasing s (l ++ m) (m.foldl (State.withdrawRequest detail) v) := by
  induction m generalizing l v with
  | nil => rwa [List.append_nil]
  | cons r m ih =>
    have hr : r ∉ l := not_mem_of_nodup_append hnodup
    have hstep : Releasing s (l ++ [r]) (State.withdrawRequest detail v r) := by
      cases r with
      | bypass p => exact h.bypass p
      | fill i =>
        by_cases hholds : (s.slot i).present = 0 ∧ (s.slot i).dirty = 0
        · exact h.release hr (hstate i (hsub _ List.mem_cons_self) hholds.1 hholds.2) hholds
        · exact h.keep hr hholds
    have := ih (l := l ++ [r]) (fun q hq => hsub q (List.mem_cons_of_mem r hq)) (by rwa [List.append_assoc]) hstep
    rwa [List.append_assoc] at this

theorem OnlyAccess.eq {a b : State} (ha : OnlyAccess s a) (hb : OnlyAccess s b) (hslots : a.slots = b.slots)
    (hfree : a.freeList = b.freeList) (hrecency : a.recency = b.recency) (hage : a.ageList = b.ageList) (hpinned : a.pinned = b.pinned)
    (hqueue : a.queue = b.queue) (hA : a.portA = b.portA) (hB : a.portB = b.portB) (hrequests : a.requests = b.requests) : a = b := by
  unfold OnlyAccess at ha hb
  rw [hslots, hfree, hrecency, hage, hpinned, hqueue, hA, hB, hrequests] at ha
  rw [ha]
  exact hb.symm

theorem State.withAccess_frame (s : State) (slots : Vector Slot 32) (free recency : List SlotIx) (requests : List Request) (a b : HostPort) :
    OnlyAccess s { s with slots := slots, freeList := free, recency := recency, requests := requests, portA := a, portB := b } := rfl

/-- In a state whose waits are sound a port waits on a withdrawn request exactly when its wait state says so. -/
theorem State.refusedBy_eq (h : s.withdrawable) (p : PortId) : s.refusedBy detail s.requests p = s.withdrawnPort detail p := by
  obtain ⟨-, ⟨hfieldsA, hfieldsB, hwaitA, hwaitB⟩, -, -, hbypassA, hbypassB⟩ := h
  have hfields : (s.port p).fieldsOk := by cases p <;> assumption
  have hwait : s.waitOk p := by cases p <;> assumption
  have hbypass : .bypass p ∈ s.requests → (s.port p).state = .waitBypass := by cases p <;> assumption
  obtain ⟨haccess, -, hwaited⟩ := hfields
  have hno : (s.port p).state ≠ .waitFill → ¬∃ i : SlotIx, (s.slot i).wait p ≠ none ∧ .fill i ∈ s.requests := fun hs ⟨i, hi, _⟩ => hi (by
    rw [hwait i, hwaited.2 hs]
    exact if_neg nofun)
  unfold State.refusedBy State.withdrawnPort
  dsimp only
  cases hstate : (s.port p).state with
  | idle =>
    rw [if_neg]
    rintro (hb | hf)
    · rw [hstate] at hbypass
      exact nomatch hbypass hb
    · exact hno (by rw [hstate]; nofun) hf
  | waitSlot =>
    rw [if_neg]
    rintro (hb | hf)
    · rw [hstate] at hbypass
      exact nomatch hbypass hb
    · exact hno (by rw [hstate]; nofun) hf
  | waitBypass =>
    obtain ⟨acc, hacc⟩ := Option.ne_none_iff_exists'.1 fun hn => by rw [haccess.1 hn] at hstate; cases hstate
    rw [hacc]
    dsimp only
    refine ite_of_iff (or_iff_left (hno (by rw [hstate]; nofun))) (HostPort.unavailable_some hacc _ _) rfl
  | waitFill =>
    obtain ⟨acc, hacc⟩ := Option.ne_none_iff_exists'.1 fun hn => by rw [haccess.1 hn] at hstate; cases hstate
    rw [hacc]
    dsimp only
    refine ite_of_iff ?_ (HostPort.unavailable_some hacc _ _) rfl
    constructor
    · rintro (hb | ⟨i, hi, hin⟩)
      · rw [hstate] at hbypass
        exact nomatch hbypass hb
      · refine ⟨i, ?_, hin⟩
        refine Classical.byContradiction fun hne => ?_
        exact hi (by rw [hwait i]; exact if_neg hne)
    · rintro ⟨i, hi, hin⟩
      exact .inr ⟨i, by rw [hwait i, if_pos (Option.mem_def.1 hi), hacc]; nofun, hin⟩

/-- Every request withdrawn, as one explicit next state. -/
theorem State.withdrawAll_eq (h : s.withdrawable) (detail : Detail) : s.withdrawAll detail = s.withdrawn detail := by
  obtain ⟨hnodup, -, ⟨hcoll, hasc⟩, hslots, -⟩ := id h
  have hports := State.withdrawAll_withdrawing s detail hnodup
  have hstart : Releasing s [] s :=
    { slot := fun i => by simp [State.withdrawnSlot, State.leftEmpty], coll := hcoll, asc := hasc
      recency := (List.filter_eq_self.2 fun _ _ => by simp [State.leftEmpty]).symm, age := rfl, pinned := rfl, queue := rfl }
  have hreleased : Releasing s s.requests (s.withdrawAll detail) :=
    hstart.foldl (l := []) (fun i hi hp hd => (hslots i hi).2 hp hd) (fun _ => id) (by rwa [List.nil_append])
  have hport := fun p => (hports.port p).trans (State.refusedBy_eq h p)
  unfold State.withdrawn
  dsimp only
  refine hports.frame.eq (State.withAccess_frame s _ _ _ _ _ _) ?_ ?_ hreleased.recency hreleased.age hreleased.pinned hreleased.queue
    (hport .a) (hport .b) hports.requests
  · refine slots_ext fun i => ?_
    refine (hreleased.slot i).trans ?_
    simp [State.withdrawnSlot, State.leftEmpty, Slot.unrequested]
  · rw [State.freeList_eq hreleased.coll hreleased.asc]
    dsimp only
    refine List.filter_congr fun i _ => ?_
    rw [hreleased.slot]
    unfold State.withdrawnSlot
    cases hempty : s.leftEmpty s.requests i with
    | true =>
      unfold State.leftEmpty at hempty
      rw [hempty, Bool.or_true]
      rfl
    | false =>
      unfold State.leftEmpty at hempty
      rw [hempty, Bool.or_false, if_neg (by nofun)]
      split <;> rfl

end Sys2Proof.Machine

/-! PROOF. The entries to DEGRADED (R150) and to QUIESCED (R145), by the steps the manual gives for each. -/

namespace Sys2Proof.Machine

variable {s u v : State} {i : SlotIx} {p q : PortId} {acc : Access} {detail : Detail}

/-! ### A write refused leaves the waits of its port -/

theorem HostPort.writeRefused_eq {h : HostPort} (hfields : h.fieldsOk) (now : Time) (reason : Reason) (detail : Detail) :
    h.writeRefused now reason detail = h ∨
      h.state = .waitSlot ∧ h.waited = none ∧ ∃ acc, h.writeRefused now reason detail = h.refusing now acc reason detail := by
  by_cases hs : h.state = .waitSlot
  · obtain ⟨haccess, -, hwaited⟩ := hfields
    obtain ⟨acc, hacc⟩ := Option.ne_none_iff_exists'.1 fun hn => by rw [haccess.1 hn] at hs; cases hs
    refine .inr ⟨hs, hwaited.2 (by rw [hs]; nofun), acc, ?_⟩
    unfold HostPort.writeRefused
    rw [hs, hacc]
  · exact .inl (HostPort.writeRefused_other h _ _ _ hs)

theorem HostPort.refusing_fieldsOk (h : HostPort) (now : Time) (acc : Access) (reason : Reason) (detail : Detail) :
    (h.refusing now acc reason detail).fieldsOk :=
  ⟨⟨fun _ => rfl, fun _ => rfl⟩, ⟨fun _ => rfl, fun _ => rfl⟩, ⟨fun _ => nofun, fun _ => rfl⟩⟩

theorem HostPort.writeRefused_fieldsOk {h : HostPort} (hfields : h.fieldsOk) (now : Time) (reason : Reason) (detail : Detail) :
    (h.writeRefused now reason detail).fieldsOk := by
  rcases HostPort.writeRefused_eq hfields now reason detail with heq | ⟨-, -, acc, heq⟩
  · rwa [heq]
  · rw [heq]
    exact HostPort.refusing_fieldsOk ..

/-- What a port waits on is the same after its waiting write, if any, was refused. -/
theorem HostPort.writeRefused_waits {h : HostPort} (hfields : h.fieldsOk) (now : Time) (reason : Reason) (detail : Detail) (i : SlotIx) :
    (if (h.writeRefused now reason detail).waited = some i then (h.writeRefused now reason detail).access.map Access.offsets else none) =
      if h.waited = some i then h.access.map Access.offsets else none := by
  rcases HostPort.writeRefused_eq hfields now reason detail with heq | ⟨-, hwaited, acc, heq⟩
  · rw [heq]
  · rw [heq, hwaited]
    rfl

/-! ### The entry to DEGRADED -/

/-- The state at the entry to DEGRADED, before any request is withdrawn. -/
@[irreducible] def State.degraded (s : State) (cause : Cause) : State :=
  { s with
    store := { s.store with state := .degraded, cause := some cause, origin := none, phase := none, holdDeadline := none }
    slots := Vector.ofFn fun i => { s.slot i with settle := none, age := none }
    portA := s.portA.writeRefused s.now .storeFull .degraded, portB := s.portB.writeRefused s.now .storeFull .degraded
    mgmt := { s.mgmt with long := if s.mgmt.long = .quiesce then .none else s.mgmt.long } }

theorem slots_map (v : Vector Slot 32) (f : Slot → Slot) : v.map f = Vector.ofFn fun i : SlotIx => f v[i.val] :=
  slots_ext fun i => by rw [Vector.getElem_map]; simp

theorem State.entry_eq (s : State) (hA : s.portA.fieldsOk) (hB : s.portB.fieldsOk) (reason : Reason) (detail : Detail) (long : LongCommand) :
    (s.clearDeadlines.refuseWrites reason detail).endLong long =
      { s with slots := Vector.ofFn fun i => { s.slot i with settle := none, age := none }
               portA := s.portA.writeRefused s.now reason detail, portB := s.portB.writeRefused s.now reason detail
               mgmt := { s.mgmt with long := if s.mgmt.long = long then .none else s.mgmt.long } } := by
  have hslots : (s.slots.map fun x => { x with settle := none, age := none }) = Vector.ofFn fun i : SlotIx => { s.slot i with settle := none, age := none } :=
    slots_map _ _
  rw [State.clearDeadlines_eq, hslots]
  generalize (Vector.ofFn fun i : SlotIx => { s.slot i with settle := none, age := none }) = slots
  rw [State.refuseWrites_eq { s with slots := slots } reason detail hA hB, State.endLong_eq]

theorem State.enterDegraded_eq (s : State) (cause : Cause) (hA : s.portA.fieldsOk) (hB : s.portB.fieldsOk) :
    s.enterDegraded cause = if cause = .arrayTimeout then (s.degraded cause).withdrawAll .arrayTimeout else s.degraded cause := by
  have hsteps := State.entry_eq { s with store := { s.store with
    state := .degraded, cause := some cause, origin := none, phase := none, holdDeadline := none } } hA hB .storeFull .degraded .quiesce
  unfold State.enterDegraded State.degraded
  dsimp only at hsteps ⊢
  rw [hsteps]
  cases cause <;> rfl

theorem State.degraded_requests (s : State) (cause : Cause) : (s.degraded cause).requests = s.requests := by
  unfold State.degraded
  rfl

theorem State.degraded_collection (s : State) (cause : Cause) (c : SlotState) : (s.degraded cause).collection c = s.collection c := by
  unfold State.degraded
  cases c <;> dsimp only [State.collection]

theorem State.degraded_now (s : State) (cause : Cause) : (s.degraded cause).now = s.now := by
  unfold State.degraded
  rfl

theorem State.slot_degraded (s : State) (cause : Cause) (i : SlotIx) :
    (s.degraded cause).slot i = { s.slot i with settle := none, age := none } := by
  simp [State.degraded, State.slot]

theorem State.port_degraded (s : State) (cause : Cause) (p : PortId) :
    (s.degraded cause).port p = (s.port p).writeRefused s.now .storeFull .degraded := by
  unfold State.degraded
  cases p <;> rfl

theorem State.degraded_waitOk (s : State) (cause : Cause) (hfields : (s.port p).fieldsOk) (h : s.waitOk p) :
    (s.degraded cause).waitOk p := fun i => by
  rw [State.slot_degraded, State.port_degraded, HostPort.writeRefused_waits hfields, ← h i]
  cases p <;> rfl

theorem State.degraded_withdrawable (s : State) (cause : Cause) (h : s.withdrawable) : (s.degraded cause).withdrawable := by
  obtain ⟨hnodup, ⟨hA, hB, hwaitA, hwaitB⟩, ⟨hcoll, hasc⟩, hslots, hbypassA, hbypassB⟩ := h
  have hrequests := State.degraded_requests s cause
  have hportA : (s.degraded cause).portA = s.portA.writeRefused s.now .storeFull .degraded := State.port_degraded s cause .a
  have hportB : (s.degraded cause).portB = s.portB.writeRefused s.now .storeFull .degraded := State.port_degraded s cause .b
  have hfree : (s.degraded cause).freeList = s.freeList := State.degraded_collection s cause .free
  refine ⟨hrequests ▸ hnodup, ⟨hportA ▸ HostPort.writeRefused_fieldsOk hA _ _ _, hportB ▸ HostPort.writeRefused_fieldsOk hB _ _ _,
    State.degraded_waitOk s cause (p := .a) hA hwaitA, State.degraded_waitOk s cause (p := .b) hB hwaitB⟩,
    ⟨State.collectionsOk_congr hcoll (fun i => by rw [State.slot_degraded]) (State.degraded_collection s cause), by rw [State.freeAscending, hfree]; exact hasc⟩,
    fun i hi => ?_, fun hb => ?_, fun hb => ?_⟩
  · rw [State.slot_degraded]
    exact hslots i (hrequests ▸ hi)
  · have hstate := hbypassA (hrequests ▸ hb)
    rw [hportA, HostPort.writeRefused_other _ _ _ _ (by rw [hstate]; nofun), hstate]
  · have hstate := hbypassB (hrequests ▸ hb)
    rw [hportB, HostPort.writeRefused_other _ _ _ _ (by rw [hstate]; nofun), hstate]

/-- Settles O16: the steps of the entry, and at an array timeout the withdrawal. -/
theorem entryToDegraded : Obligations.EntryToDegraded := by
  intro s cause p acc i hA hB refused
  have hrefused : ∀ h : HostPort, refused h = h.writeRefused s.now .storeFull .degraded := fun _ => rfl
  rw [hrefused, hrefused, ← State.degraded.eq_1 s cause]
  have henter := State.enterDegraded_eq s cause hA hB
  have hport : ∀ p, (s.port p).state ≠ .waitSlot → (s.degraded cause).port p = s.port p := fun p hs => by
    rw [State.port_degraded, HostPort.writeRefused_other _ _ _ _ hs]
  have hrequests := State.degraded_requests s cause
  have hnow := State.degraded_now s cause
  have hslots := State.degraded_withdrawable s cause
  have hwaits := State.degraded_waitOk s cause (p := p)
  generalize s.degraded cause = m at *
  refine ⟨fun hno => ?_, fun htimeout hnodup hwaitA hwaitB => ?_, fun htimeout h => ?_⟩
  · rw [henter]
    split
    · rename_i hcause
      have hempty : m.requests = [] := hrequests.trans (hno.resolve_left (Classical.not_not.2 hcause))
      unfold State.withdrawAll
      rw [hempty]
      rfl
    · rfl
  · rw [if_pos htimeout] at henter
    have hw := State.withdrawAll_withdrawing m .arrayTimeout (hrequests ▸ hnodup)
    refine ⟨henter ▸ hw.requests, fun hstate hin hacc => ?_, fun hstate hwaited hin hacc => ?_⟩
    · have hsame := hport p (by rw [hstate]; nofun)
      rw [henter, hw.port, State.refusedBy_bypass (s := m) (hrequests ▸ hin) (hsame ▸ hacc), hsame, hnow]
    · have hsame := hport p (by rw [hstate]; nofun)
      have hwait : m.waitOk p := by
        refine hwaits ?_ ?_ <;> cases p <;> assumption
      rw [henter, hw.port, State.refusedBy_fill (s := m) hwait (hsame ▸ hwaited) (hrequests ▸ hin) (hsame ▸ hacc), hsame, hnow]
  · rw [henter, if_pos htimeout, State.withdrawAll_eq (hslots h)]

/-! ### The entry to QUIESCED -/

theorem State.refuseWrites_port (s : State) (reason : Reason) (detail : Detail) (h : (s.port p).state ≠ .waitSlot) :
    (s.refuseWrites reason detail).port p = s.port p := by
  have hone : ∀ (m : State) (q : PortId), (m.port p).state ≠ .waitSlot → (State.refuseWrite reason detail m q).port p = m.port p :=
    fun m q hm => by
      unfold State.refuseWrite
      split
      · rename_i hq
        have hne : q ≠ p := fun hpq => hm (hpq ▸ hq)
        exact State.port_setPort_ne m _ hne
      · rfl
  show (State.refuseWrite reason detail (State.refuseWrite reason detail s .a) .b).port p = _
  rw [hone _ .b (by rw [hone s .a h]; exact h), hone s .a h]

/-- What serving a waiting write does to the ports: its own is answered, or nothing is. -/
theorem State.serveWrite_port (s : State) (q p : PortId) : (s.serveWrite q).port p = s.port p ∨
    q = p ∧ (s.port p).state = .waitSlot ∧ (s.serveWrite q).port p = s.okTo p := by
  by_cases hs : (s.port q).state = .waitSlot
  · cases hacc : (s.port q).access with
    | none =>
      refine .inl (congrArg (fun m => State.port m p) ?_)
      unfold State.serveWrite
      rw [hs, hacc]
    | some acc =>
      rw [State.serveWrite_waiting hs hacc]
      have hanswered : ∀ m : State, OnlySlots s m → (m.answer q 0).port p = s.port p ∨
          q = p ∧ (s.port p).state = .waitSlot ∧ (m.answer q 0).port p = s.okTo p := fun m hm => by
        rw [hm.answer]
        by_cases hq : q = p
        · subst hq
          exact .inr ⟨rfl, hs, State.port_setPort_same m q _⟩
        · exact .inl ((State.port_setPort_ne m _ hq).trans (hm.port p))
      unfold State.writeInto
      cases s.lookup acc.page with
      | some i => exact hanswered _ (s.merge_frame i acc)
      | none =>
        dsimp only
        cases s.allocatable with
        | none => exact .inl rfl
        | some i => exact hanswered _ ((s.allocate_frame i acc.page).trans (State.merge_frame _ i acc))
  · exact .inl (by rw [State.serveWrite_other hs])

theorem HostPort.answering_fieldsOk (h : HostPort) (now : Time) (reason : Reason) (rd : BitVec 32) (e : LastError) :
    (h.answering now reason rd e).fieldsOk :=
  ⟨⟨fun _ => rfl, fun _ => rfl⟩, ⟨fun _ => rfl, fun _ => rfl⟩, ⟨fun _ => nofun, fun _ => rfl⟩⟩

/-- Serving the waiting writes keeps what is said of a port that no write waits at, and what every answered port has. -/
theorem State.serveWaiting_port {P : HostPort → Prop} (h : P (s.port p))
    (hok : ∀ m : State, m.now = s.now → (m.port p).state = .waitSlot → P (m.port p) → P (m.okTo p)) : P (s.serveWaiting.port p) := by
  have hfold : ∀ (l : List PortId) (m : State), m.now = s.now → P (m.port p) → P ((l.foldl State.serveWrite m).port p) := fun l => by
    induction l with
    | nil => exact fun _ _ hm => hm
    | cons q l ih =>
      intro m hnow hm
      refine ih (m.serveWrite q) ((State.serveWrite_frame m q).now.trans hnow) ?_
      rcases State.serveWrite_port m q p with heq | ⟨-, hs, heq⟩
      · rwa [heq]
      · rw [heq]
        exact hok m hnow hs hm
  exact hfold _ s rfl h

theorem State.serveWaiting_port_other (h : (s.port p).state ≠ .waitSlot) : s.serveWaiting.port p = s.port p :=
  State.serveWaiting_port (P := fun x => x = s.port p) rfl fun _ _ hs hm => absurd (hm ▸ hs) h

theorem State.serveWaiting_fieldsOk (h : (s.port p).fieldsOk) : (s.serveWaiting.port p).fieldsOk :=
  State.serveWaiting_port (P := HostPort.fieldsOk) h fun _ _ _ _ => HostPort.answering_fieldsOk ..

/-- The last steps of the entry to QUIESCED: waiting writes refused, QUIESCE ended, the port released when nothing is being read. -/
def State.quiescing (s : State) : State :=
  { s with portA := s.portA.writeRefused s.now .storeFull .quiesced, portB := s.portB.writeRefused s.now .storeFull .quiesced
           mgmt := { s.mgmt with long := if s.mgmt.long = .quiesce then .none else s.mgmt.long }
           driven := if s.owner = .none then false else s.driven }

theorem State.releasePort_idle (s : State) :
    (if s.owner = .none then s.releasePort else s) = { s with driven := if s.owner = .none then false else s.driven } := by
  split <;> rfl

/-- The steps of the entry to QUIESCED after a slot was offered to the waiting writes. -/
def State.quiesceEnd (s : State) : State :=
  let n := (s.refuseWrites .storeFull .quiesced).endLong .quiesce
  if n.owner = .none then n.releasePort else n

theorem State.quiesceEnd_eq (s : State) (hA : s.portA.fieldsOk) (hB : s.portB.fieldsOk) : s.quiesceEnd = s.quiescing := by
  unfold State.quiesceEnd State.quiescing
  dsimp only
  rw [State.releasePort_idle, State.refuseWrites_eq s _ _ hA hB, State.endLong_eq]

theorem State.quiesceEnd_requests (s : State) : s.quiesceEnd.requests = s.requests := by
  obtain ⟨a, b, hports⟩ := State.refuseWrites_ports s .storeFull .quiesced
  unfold State.quiesceEnd
  dsimp only
  rw [State.releasePort_idle, hports, State.endLong_eq]

theorem State.quiesceEnd_port (h : (s.port p).state ≠ .waitSlot) : s.quiesceEnd.port p = s.port p := by
  have hkept := State.refuseWrites_port s .storeFull .quiesced h
  unfold State.quiesceEnd
  dsimp only
  generalize s.refuseWrites .storeFull .quiesced = m at hkept ⊢
  rw [State.releasePort_idle, State.endLong_eq, ← hkept]
  cases p <;> rfl

/-- The store QUIESCED, before the steps of R145. -/
def State.inQuiesced (s : State) : State := { s with store := { s.store with state := .quiesced } }

theorem State.enterQuiesced_steps (s : State) : s.enterQuiesced = (s.inQuiesced.withdrawAll .quiesced).serveWaiting.quiesceEnd := rfl

theorem State.enterQuiesced_eq (s : State) (hA : ((s.inQuiesced.withdrawAll .quiesced).portA).fieldsOk)
    (hB : ((s.inQuiesced.withdrawAll .quiesced).portB).fieldsOk) :
    s.enterQuiesced = (s.inQuiesced.withdrawAll .quiesced).serveWaiting.quiescing := by
  rw [State.enterQuiesced_steps]
  generalize s.inQuiesced.withdrawAll .quiesced = m at *
  exact State.quiesceEnd_eq _ (State.serveWaiting_fieldsOk (p := .a) hA) (State.serveWaiting_fieldsOk (p := .b) hB)

theorem State.withdrawAll_nil (h : s.requests = []) (detail : Detail) : s.withdrawAll detail = s := by
  unfold State.withdrawAll
  rw [h]
  rfl

theorem State.withdrawnPort_fieldsOk (s : State) (detail : Detail) (h : (s.port p).fieldsOk) : (s.withdrawnPort detail p).fieldsOk := by
  unfold State.withdrawnPort
  dsimp only
  split
  · split
    · exact HostPort.refusing_fieldsOk ..
    · exact h
  · split
    · exact HostPort.refusing_fieldsOk ..
    · exact h
  · exact h

theorem State.port_withdrawn (s : State) (detail : Detail) (p : PortId) : (s.withdrawn detail).port p = s.withdrawnPort detail p := by
  unfold State.withdrawn
  cases p <;> dsimp only [State.port]

theorem State.quiescing_of_frame (h : OnlyAccess s.inQuiesced v) {refused : HostPort → HostPort}
    (hrefused : ∀ h : HostPort, refused h = h.writeRefused s.now .storeFull .quiesced) :
    v.quiescing = { v with portA := refused v.portA, portB := refused v.portB
                           mgmt := { s.mgmt with long := if s.mgmt.long = .quiesce then .none else s.mgmt.long }
                           driven := if s.owner = .none then false else s.driven } := by
  have hnow : v.now = s.now := h.now
  have hmgmt : v.mgmt = s.mgmt := by rw [h]; rfl
  have howner : v.owner = s.owner := by rw [h]; rfl
  have hdriven : v.driven = s.driven := by rw [h]; rfl
  unfold State.quiescing
  rw [hnow, hmgmt, howner, hdriven, hrefused, hrefused]

/-- Settles O17: the steps of the entry in their order, and when it is. -/
theorem entryToQuiesced : Obligations.EntryToQuiesced := by
  intro s p acc i hA hB refused
  have hrefused : ∀ h : HostPort, refused h = h.writeRefused s.now .storeFull .quiesced := fun _ => rfl
  have hidle : s.requests = [] → s.enterQuiesced = s.inQuiesced.serveWaiting.quiescing := fun hempty => by
    have hnone : s.inQuiesced.withdrawAll .quiesced = s.inQuiesced := State.withdrawAll_nil (s := s.inQuiesced) hempty _
    rw [State.enterQuiesced_eq s (by rw [hnone]; exact hA) (by rw [hnone]; exact hB), hnone]
  refine ⟨fun hempty hno _ hpageA hpageB => ?_, fun hempty hwrites => ?_, fun hnodup hwaitA hwaitB => ?_, fun h => ?_, rfl⟩
  · have hstays : ∀ q, s.inQuiesced.serveWrite q = s.inQuiesced := fun q => by
      have hport : s.inQuiesced.port q = s.port q := by cases q <;> rfl
      by_cases hs : (s.inQuiesced.port q).state = .waitSlot
      · cases hacc : (s.inQuiesced.port q).access with
        | none =>
          unfold State.serveWrite
          rw [hs, hacc]
        | some a =>
          rw [State.serveWrite_waiting hs hacc]
          rw [hport] at hs hacc
          refine State.writeInto_none (s := s.inQuiesced) ?_ hno
          cases q
          · exact hpageA a hacc hs
          · exact hpageB a hacc hs
      · exact State.serveWrite_other hs
    have hserve : s.inQuiesced.serveWaiting = s.inQuiesced := by
      unfold State.serveWaiting
      generalize s.inQuiesced.portsByArrival = l
      induction l with
      | nil => rfl
      | cons q l ih => rw [List.foldl_cons, hstays, ih]
    rw [hidle hempty, hserve, hrefused, hrefused]
    rfl
  · have hsame : ∀ h : HostPort, h.state ≠ .waitSlot → h.writeRefused s.now .storeFull .quiesced = h := fun h hs =>
      HostPort.writeRefused_other h _ _ _ hs
    have hserve : s.inQuiesced.serveWaiting = s.inQuiesced := State.serveWaiting_none hwrites
    rw [hidle hempty, hserve]
    unfold State.quiescing
    rw [show s.inQuiesced.portA.writeRefused s.inQuiesced.now .storeFull .quiesced = s.portA from hsame _ hwrites.1,
      show s.inQuiesced.portB.writeRefused s.inQuiesced.now .storeFull .quiesced = s.portB from hsame _ hwrites.2]
    rfl
  · have hw := State.withdrawAll_withdrawing s.inQuiesced .quiesced hnodup
    have hrequests : s.enterQuiesced.requests = [] := by
      rw [State.enterQuiesced_steps, State.quiesceEnd_requests, State.serveWaiting_requests, hw.requests]
    have hport : ((s.inQuiesced.withdrawAll .quiesced).port p).state = .idle →
        s.enterQuiesced.port p = (s.inQuiesced.withdrawAll .quiesced).port p := fun hs => by
      have hserved := State.serveWaiting_port_other (s := s.inQuiesced.withdrawAll .quiesced) (p := p) (by rw [hs]; nofun)
      rw [State.enterQuiesced_steps, State.quiesceEnd_port (by rw [hserved, hs]; nofun), hserved]
    have hsame : s.inQuiesced.port p = s.port p := by cases p <;> rfl
    refine ⟨hrequests, fun _ hin hacc => ?_, fun _ hwaited hin hacc => ?_⟩
    · have hanswer := (hw.port p).trans (State.refusedBy_bypass (s := s.inQuiesced) hin (hsame ▸ hacc))
      rw [hport (by rw [hanswer]; rfl), hanswer, hsame]
      rfl
    · have hwait : s.inQuiesced.waitOk p := by
        rw [State.waitOk]
        intro j
        rw [hsame]
        cases p
        · exact hwaitA j
        · exact hwaitB j
      have hanswer := (hw.port p).trans (State.refusedBy_fill (s := s.inQuiesced) hwait (hsame ▸ hwaited) hin (hsame ▸ hacc))
      rw [hport (by rw [hanswer]; rfl), hanswer, hsame]
      rfl
  · have hall : s.inQuiesced.withdrawAll .quiesced = s.inQuiesced.withdrawn .quiesced := State.withdrawAll_eq (s := s.inQuiesced) h .quiesced
    have hframe := State.withdrawAll_frame s.inQuiesced .quiesced
    have hfields : ∀ q, ((s.inQuiesced.withdrawn .quiesced).port q).fieldsOk := fun q => by
      rw [State.port_withdrawn]
      exact State.withdrawnPort_fieldsOk s.inQuiesced .quiesced (by cases q with | a => exact hA | b => exact hB)
    have henter := State.enterQuiesced_eq s (by rw [hall]; exact hfields .a) (by rw [hall]; exact hfields .b)
    rw [hall] at henter hframe
    rw [henter]
    show State.quiescing (State.withdrawn s.inQuiesced .quiesced).serveWaiting = _
    exact State.quiescing_of_frame (hframe.trans (State.serveWaiting_frame _)) hrefused

end Sys2Proof.Machine

/-! PROOF. Why R43 fails as stated: a port that a slot lists as waiting, but that is idle, can have a write taken from it that the
completion of that slot's fill then answers as if it were the read. -/

namespace Sys2Proof.Machine

open Sys2Proof.Tests

/-- Every slot SEALED, and slot 5 listing port A as a waiting port though port A is idle, with its fill requested. -/
def strayWait : State := { packed.modSlot 5 fun x => { x with waitA := some 0 } with requests := [.fill 5] }

/-- `strayWait` after a write at port A to page 12: no slot can be had, so the write waits, and the fill granted at the end of the
event answers the port. -/
def strayAnswer : State := ((strayWait.tick 0).arrive .a (strayWait.arrival 0 true 0x320 2 0x44332211)).finish

theorem strayWait_page : ∀ i : SlotIx, (strayWait.slot i).page = some (100 + i.val) := by decide

theorem strayWait_pagesOk : strayWait.pagesOk := by
  have hstate : ∀ i : SlotIx, (strayWait.slot i).state ≠ .free := by decide
  refine ⟨fun i hi => absurd hi (hstate i), fun i j _ hsame => ?_⟩
  rw [strayWait_page, strayWait_page] at hsame
  exact Fin.ext (Nat.add_left_cancel (Option.some.inj hsame))

theorem strayWait_collectionsOk : strayWait.collectionsOk := by decide

theorem strayAnswer_answered : (strayAnswer.port .a).rdy = true ∧ (strayAnswer.port .a).err = false := by decide

theorem strayAnswer_page : ∀ i : SlotIx, (strayAnswer.slot i).page ≠ some 12 := by decide

/-- Refutes O33: of its clauses the one on a write answered OK asks only that collections and pages be sound and that no write
wait, not that a slot's waiting ports be ports in WAIT_FILL; `strayWait` meets it, and after the write no slot carries its page. -/
theorem not_bypassCompletionDeliversNewestBytes : ¬Obligations.BypassCompletionDeliversNewestBytes := by
  intro h
  obtain ⟨-, -, -, -, hwrite, -⟩ := h 0 [] strayWait .a { kind := .bypass .a, page := 0, offsets := 0, dropped := false } acc0 0 0x320 2
    0x44332211 (.pfwDeassertionEdge 0) strayAnswer 0 0
  obtain ⟨j, ⟨⟨-, hpage⟩, -⟩, -⟩ := hwrite (by decide) (by decide) strayWait_collectionsOk strayWait_pagesOk (by decide)
    (execAccessArrival_ready (by decide) 0 true 0x320 2 0x44332211) strayAnswer_answered.1 strayAnswer_answered.2 (by decide)
  exact strayAnswer_page j hpage

end Sys2Proof.Machine

/-! PROOF. The remap table (R104, R106, R111): translation, the lowest free spare, and what every step keeps of the table and of the
tables that the commit in flight can make of it. -/

namespace Sys2Proof.Machine

variable {s u v : State} {r : Remap} {e : RemapEntry} {newlyDead : List SpareIx} {sp : SpareIx} {c : CommitRecord}

/-! ### Spares -/

theorem spareBit_getLsbD : ∀ q sp : SpareIx, (spareBit q).getLsbD sp.val = decide (sp = q) := by decide

theorem spareMask_getLsbD (l : List SpareIx) (sp : SpareIx) : (spareMask l).getLsbD sp.val = decide (sp ∈ l) := by
  induction l with
  | nil => simp [spareMask]
  | cons q rest ih =>
    rw [spareMask, BitVec.getLsbD_or, ih, spareBit_getLsbD, ← Bool.decide_or]
    exact decide_eq_decide.2 List.mem_cons.symm

theorem dead_or_getLsbD (dead : BitVec 16) (l : List SpareIx) (sp : SpareIx) :
    (dead ||| spareMask l).getLsbD sp.val = (dead.getLsbD sp.val || decide (sp ∈ l)) := by
  rw [BitVec.getLsbD_or, spareMask_getLsbD]

theorem Remap.freeSpare_iff (r : Remap) (newlyDead : List SpareIx) (sp : SpareIx) :
    r.freeSpare newlyDead = some sp ↔ r.lowestFree newlyDead sp := by
  refine ⟨fun h => ?_, Remap.freeSpare_of_lowestFree⟩
  obtain ⟨hfree, before, after, hsplit, hbefore⟩ := List.find?_eq_some_iff_append.1 h
  have hno := (r.free_iff newlyDead sp).1 hfree
  rw [not_or, not_or] at hno
  obtain ⟨hlive, hdead, hnew⟩ := hno
  refine ⟨fun e he hsp => hlive ⟨e, he, hsp⟩, Bool.eq_false_iff.2 hdead, hnew, fun q hq => ?_⟩
  have hsorted : allSpares.Pairwise (· < ·) := by decide
  rw [hsplit, List.pairwise_append] at hsorted
  have hmem : q ∈ before := by
    have hq' := mem_allSpares q
    rw [hsplit, List.mem_append, List.mem_cons] at hq'
    rcases hq' with hb | rfl | ha
    · exact hb
    · exact absurd hq (Fin.lt_irrefl _)
    · exact absurd (Fin.lt_trans hq ((List.pairwise_cons.1 hsorted.2.1).1 q ha)) (Fin.lt_irrefl _)
  refine Classical.byContradiction fun hfreeq => ?_
  have hused := hbefore q hmem
  rw [(r.free_iff newlyDead q).2 hfreeq] at hused
  exact nomatch hused

/-! ### The proposed table -/

/-- Members of a list with one image are one member when the images stand once each. -/
theorem eq_of_nodup_map {α β : Type} {f : α → β} {l : List α} (h : (l.map f).Nodup) {x y : α} (hx : x ∈ l) (hy : y ∈ l)
    (hxy : f x = f y) : x = y := by
  induction l with
  | nil => exact nomatch hx
  | cons z l ih =>
    obtain ⟨hz, hl⟩ := List.nodup_cons.1 h
    rcases List.mem_cons.1 hx with rfl | hxl <;> rcases List.mem_cons.1 hy with rfl | hyl
    · rfl
    · exact absurd (hxy ▸ List.mem_map_of_mem hyl) hz
    · exact absurd (hxy ▸ List.mem_map_of_mem hxl) hz
    · exact ih hl hxl hyl

theorem mem_applyEntry_self (live : List RemapEntry) (e : RemapEntry) : e ∈ applyEntry live e := by
  unfold applyEntry
  split
  · rename_i hany
    obtain ⟨x, hx, hpage⟩ := List.any_eq_true.1 hany
    exact List.mem_map.2 ⟨x, hx, if_pos (of_decide_eq_true hpage)⟩
  · exact List.mem_append_right _ List.mem_cons_self

/-- An entry of the table after an entry was applied to it: that one, or one of another page that stood there before. -/
theorem mem_applyEntry {live : List RemapEntry} {x : RemapEntry} (h : x ∈ applyEntry live e) : x = e ∨ x ∈ live ∧ x.page ≠ e.page := by
  unfold applyEntry at h
  split at h
  · obtain ⟨y, hy, hyx⟩ := List.mem_map.1 h
    split at hyx
    · exact .inl hyx.symm
    · subst hyx
      exact .inr ⟨hy, ‹_›⟩
  · rename_i hany
    rcases List.mem_append.1 h with hx | hx
    · exact .inr ⟨hx, fun hpage => hany (List.any_eq_true.2 ⟨x, hx, decide_eq_true hpage⟩)⟩
    · exact .inl (List.mem_singleton.1 hx)

/-- Applying an entry keeps a table sound when no other page's entry names its spare and no spare in use is dead. -/
theorem Remap.ok_of_applied (h : r.ok) (hspare : ∀ x ∈ r.live, x.page ≠ e.page → x.spare ≠ e.spare) {dead : BitVec 16}
    (hdead : dead.getLsbD e.spare.val = false) (hothers : ∀ x ∈ r.live, x.page ≠ e.page → dead.getLsbD x.spare.val = false) :
    Remap.ok { r with live := applyEntry r.live e, dead := dead } := by
  obtain ⟨-, hpages, hspares, -⟩ := h
  have hboth : (applyEntry r.live e).Pairwise fun x y => x.page ≠ y.page ∧ x.spare ≠ y.spare := by
    have hlive : r.live.Pairwise fun x y => x.page ≠ y.page ∧ x.spare ≠ y.spare :=
      (List.pairwise_map.1 hpages).and (List.pairwise_map.1 hspares)
    unfold applyEntry
    split
    · refine List.pairwise_map.2 (hlive.imp_of_mem fun {x y} hx hy hxy => ?_)
      obtain ⟨hpage, hsp⟩ := hxy
      by_cases hxe : x.page = e.page
      · have hye : y.page ≠ e.page := fun hye => hpage (hxe.trans hye.symm)
        rw [if_pos hxe, if_neg hye]
        exact ⟨hye.symm, (hspare y hy hye).symm⟩
      · rw [if_neg hxe]
        by_cases hye : y.page = e.page
        · rw [if_pos hye]
          exact ⟨hxe, hspare x hx hxe⟩
        · rw [if_neg hye]
          exact ⟨hpage, hsp⟩
    · rename_i hany
      refine List.pairwise_append.2 ⟨hlive, List.pairwise_singleton _ _, fun x hx y hy => ?_⟩
      have hpage : x.page ≠ e.page := fun hpage => hany (List.any_eq_true.2 ⟨x, hx, decide_eq_true hpage⟩)
      rw [List.mem_singleton.1 hy]
      exact ⟨hpage, hspare x hx hpage⟩
  have hnodup : ((applyEntry r.live e).map RemapEntry.spare).Nodup := List.pairwise_map.2 (hboth.imp fun h => h.2)
  refine ⟨?_, List.pairwise_map.2 (hboth.imp fun h => h.1), hnodup, fun x hx => ?_⟩
  · have hlength := hnodup.length_le_of_subset fun sp _ => mem_allSpares sp
    rwa [List.length_map] at hlength
  · rcases mem_applyEntry hx with rfl | ⟨hx, hpage⟩
    · exact hdead
    · exact hothers x hx hpage

theorem Remap.proposed_some (r : Remap) (e : RemapEntry) (newlyDead : List SpareIx) :
    r.proposed (some e) newlyDead = { r with live := applyEntry r.live e, dead := r.dead ||| spareMask newlyDead } := rfl

theorem Remap.proposed_none (r : Remap) (newlyDead : List SpareIx) :
    r.proposed none newlyDead = { r with dead := r.dead ||| spareMask newlyDead } := rfl

theorem Remap.proposed_empty (r : Remap) : r.proposed none [] = r := by
  rw [Remap.proposed_none, spareMask]
  exact congrArg (fun d => { r with dead := d }) BitVec.or_zero

/-- Spares newly dead on a sound table are not live there. -/
theorem Remap.proposed_none_ok_iff (h : r.ok) : (r.proposed none newlyDead).ok ↔ ∀ x ∈ r.live, x.spare ∉ newlyDead := by
  obtain ⟨hlen, hpages, hspares, hdead⟩ := h
  rw [Remap.proposed_none]
  refine ⟨fun ⟨_, _, _, hd⟩ x hx hmem => ?_, fun hnew => ⟨hlen, hpages, hspares, fun x hx => ?_⟩⟩
  · have := hd x hx
    rw [dead_or_getLsbD, decide_eq_true hmem, Bool.or_true] at this
    exact nomatch this
  · rw [dead_or_getLsbD, hdead x hx, decide_eq_false (hnew x hx), Bool.or_false]

/-- A tentative entry for a free spare gives a sound table when the spares newly dead are in no other page's entry. -/
theorem Remap.proposed_some_ok (h : r.ok) (hlive : ∀ x ∈ r.live, x.spare ≠ e.spare) (hdead : r.dead.getLsbD e.spare.val = false)
    (hfree : e.spare ∉ newlyDead) (hnew : ∀ x ∈ r.live, x.page ≠ e.page → x.spare ∉ newlyDead) : (r.proposed (some e) newlyDead).ok := by
  rw [Remap.proposed_some]
  obtain ⟨-, -, -, hlivedead⟩ := id h
  refine Remap.ok_of_applied h (fun x hx _ => hlive x hx) ?_ fun x hx hpage => ?_
  · rw [dead_or_getLsbD, hdead, decide_eq_false hfree, Bool.or_false]
  · rw [dead_or_getLsbD, hlivedead x hx, decide_eq_false (hnew x hx hpage), Bool.or_false]

/-- Proposing what was adopted once changes nothing that matters. -/
theorem Remap.proposed_again_ok {t : Option RemapEntry} (h : (r.proposed t newlyDead).ok) :
    ((r.proposed t newlyDead).proposed t newlyDead).ok := by
  have hmask : r.dead ||| spareMask newlyDead ||| spareMask newlyDead = r.dead ||| spareMask newlyDead := by
    rw [BitVec.or_assoc, BitVec.or_self]
  obtain ⟨-, -, hspares, hdead⟩ := id h
  cases t with
  | none =>
    rw [Remap.proposed_none, Remap.proposed_none] at *
    dsimp only
    rwa [hmask]
  | some e =>
    rw [Remap.proposed_some (r.proposed _ _)]
    have he : e ∈ (r.proposed (some e) newlyDead).live := mem_applyEntry_self r.live e
    have hd : (r.proposed (some e) newlyDead).dead ||| spareMask newlyDead = (r.proposed (some e) newlyDead).dead := hmask
    rw [hd]
    refine Remap.ok_of_applied h (fun x hx hpage hsp => hpage ?_) (hdead e he) fun x hx _ => hdead x hx
    exact congrArg RemapEntry.page (eq_of_nodup_map hspares hx he hsp)

end Sys2Proof.Machine

/-! PROOF. What a step makes of the remap table and of the commit record: most leave both, a load or a re-attempt changes the attempt
alone, a snapshot begins a record that proposes nothing; the endings of a retirement adopt a sound table. -/

namespace Sys2Proof.Machine

variable {s u v : State} {c d : CommitRecord} {sp : SpareIx} {w : MapWriter} {failing : OffsetSet}

/-! ### Table and record left alone -/

/-- The remap table and the commit record. -/
def State.tables (s : State) : Remap × Option CommitRecord := (s.remap, s.commit)

theorem OnlyStore.tables (h : OnlyStore s u) : u.tables = s.tables := by
  rw [h]
  rfl

theorem OnlyAccess.tables (h : OnlyAccess s u) : u.tables = s.tables := h.toOnlyStore.tables

theorem OnlySlots.tables (h : OnlySlots s u) : u.tables = s.tables := h.toOnlyAccess.tables

theorem State.modPort_tables (s : State) (p : PortId) (f : HostPort → HostPort) : (s.modPort p f).tables = s.tables :=
  (s.modPort_frame p f).tables

theorem State.arrive_tables (s : State) (p : PortId) (acc : Access) : (s.arrive p acc).tables = s.tables := by
  have htake : (s.takeAccess p acc).tables = s.tables := by cases p <;> rfl
  unfold State.arrive
  dsimp only
  rw [← htake]
  split
  · exact (State.answerNotReady_frame _ p).tables
  · exact (State.answerError_frame _ p _ _).tables
  · split
    · exact (State.writePath_frame _ p _).tables
    · exact (State.readPath_frame _ p _).tables

theorem State.expireFill_tables (s : State) (p : PortId) (i : SlotIx) : (s.expireFill p i).tables = s.tables := by
  unfold State.expireFill
  dsimp only
  rw [(State.answerError_frame _ p _ _).tables]
  split
  · exact (((s.modSlot_frame i _).toOnlyAccess.trans (State.withdrawFill_frame _ i)).trans (State.releaseIfEmpty_frame _ i).toOnlyAccess).tables
  · exact (s.modSlot_frame i _).tables

theorem State.expireBypass_tables (s : State) (p : PortId) : (s.expireBypass p).tables = s.tables := by
  unfold State.expireBypass
  dsimp only
  rw [(State.answerError_frame _ p _ _).tables]
  split
  · rfl
  · split <;> rfl

theorem State.landReading_tables (s : State) (i : SlotIx) (g : Reading) : (s.landReading i g).tables = s.tables := by
  unfold State.landReading
  split
  · rfl
  · exact (State.completeFill_frame s i _ _).tables

theorem State.deliverBypass_tables (s : State) (p : PortId) (g : Reading) : (s.deliverBypass p g).tables = s.tables := by
  unfold State.deliverBypass
  split
  · rfl
  · split
    · exact (State.answer_frame s p _).tables
    · rfl

theorem State.endReading_tables (s : State) : s.endReading.tables = s.tables := by
  unfold State.endReading
  dsimp only
  split
  · rfl
  · exact (State.tryHold_frame _).tables

/-! ### The attempt alone -/

/-- A record that proposes nothing: the commit's first attempts on the home page. -/
def CommitRecord.untouched (d : CommitRecord) : Prop := d.phase = .home ∧ d.tentative = none ∧ d.newlyDead = []

/-- Two records alike in everything that bears on the table. -/
def CommitRecord.alike (d c : CommitRecord) : Prop :=
  d.phase = c.phase ∧ d.tentative = c.tentative ∧ d.newlyDead = c.newlyDead ∧ d.spare = c.spare

/-- The table stands, and a commit in flight afterwards proposes nothing or what the one before did. -/
def Calm (s u : State) : Prop := u.remap = s.remap ∧ ∀ d ∈ u.commit, d.untouched ∨ ∃ c ∈ s.commit, d.alike c

theorem Calm.of_tables (h : u.tables = s.tables) : Calm s u := by
  obtain ⟨hremap, hcommit⟩ := Prod.mk.inj h
  exact ⟨hremap, fun d hd => .inr ⟨d, hcommit ▸ hd, rfl, rfl, rfl, rfl⟩⟩

theorem Calm.refl (s : State) : Calm s s := .of_tables rfl

theorem Calm.trans (h : Calm s u) (k : Calm u v) : Calm s v := by
  obtain ⟨hremap, hcommit⟩ := h
  obtain ⟨kremap, kcommit⟩ := k
  refine ⟨kremap.trans hremap, fun d hd => ?_⟩
  rcases kcommit d hd with hu | ⟨c, hc, h1, h2, h3, h4⟩
  · exact .inl hu
  · rcases hcommit c hc with ⟨g1, g2, g3⟩ | ⟨b, hb, g1, g2, g3, g4⟩
    · exact .inl ⟨h1.trans g1, h2.trans g2, h3.trans g3⟩
    · exact .inr ⟨b, hb, h1.trans g1, h2.trans g2, h3.trans g3, h4.trans g4⟩

theorem Calm.remapSound (h : Calm s u) (hs : s.remapSound) : u.remapSound := by
  obtain ⟨hremap, hcommit⟩ := h
  obtain ⟨hok, hrecord⟩ := hs
  refine ⟨hremap ▸ hok, fun d hd => ?_⟩
  rw [hremap]
  rcases hcommit d hd with ⟨hphase, htentative, hnew⟩ | ⟨c, hc, hphase, htentative, hnew, hspare⟩
  · rw [hphase, htentative, hnew, Remap.proposed_empty]
    exact ⟨hok, fun _ => rfl, nofun⟩
  · rw [hphase, htentative, hnew, hspare]
    exact hrecord c hc

theorem State.setAttempt_calm (s : State) (a : Attempt) : Calm s (s.setAttempt a) := by
  unfold State.setAttempt
  split
  · exact .of_tables rfl
  · split
    · rename_i c hc
      exact ⟨rfl, fun d hd => .inr ⟨c, hc, by rw [← Option.some.inj hd]; exact ⟨rfl, rfl, rfl, rfl⟩⟩⟩
    · exact .refl s

theorem State.issueLoad_calm (s : State) : Calm s s.issueLoad := by
  unfold State.issueLoad
  split
  · exact .refl s
  · split
    · exact .refl s
    · exact (s.setAttempt_calm _).trans (.of_tables rfl)

theorem State.offer_tables (s : State) : s.offer.tables = s.tables := by
  unfold State.offer
  split <;> rfl

theorem State.snapshot_calm (s : State) : Calm s s.snapshot := by
  unfold State.snapshot
  split
  · exact .refl s
  · rename_i i _ _
    dsimp only
    refine Calm.trans ?_ (State.issueLoad_calm _)
    have htables := ((s.moveTo_frame i .committing).trans (State.modSlot_frame _ i fun x => { x with dirty := 0, dirtySince := none })).tables
    exact ⟨(Prod.mk.inj htables).1, fun d hd => .inl (by rw [← Option.some.inj hd]; exact ⟨rfl, rfl, rfl⟩)⟩

theorem State.grantEngine_calm (s : State) : Calm s s.grantEngine := by
  unfold State.grantEngine
  split
  · exact .refl s
  · exact s.snapshot_calm
  · exact Calm.trans (u := { s with owner := .mapWriter, engineReq := none, fairness := 0 }) (.of_tables rfl) (State.issueLoad_calm _)

theorem State.grantRequest_tables (s : State) (r : Request) : (s.grantRequest r).tables = s.tables := by
  unfold State.grantRequest
  cases r with
  | fill i =>
    dsimp only
    split
    · exact ((State.completeFill_frame _ _ _ _).trans (State.serveWaiting_frame _)).tables
    · rfl
  | bypass p =>
    dsimp only
    split <;> rfl

theorem State.arbitrate_calm (n : Nat) (s : State) : Calm s (State.arbitrate n s) := by
  induction n generalizing s with
  | zero => exact .refl s
  | succ n ih =>
    have hoffer : Calm s s.offer := .of_tables s.offer_tables
    unfold State.arbitrate
    dsimp only
    split
    · exact hoffer
    · split
      · exact hoffer.trans (State.grantEngine_calm _)
      · split
        · exact (hoffer.trans (.of_tables (State.grantRequest_tables _ _))).trans (ih _)
        · split
          · exact hoffer.trans (State.grantEngine_calm _)
          · exact hoffer

theorem State.finish_calm (s : State) : Calm s s.finish := State.arbitrate_calm _ s

/-- What stands before the grant rule has a sound table, stands after it. -/
theorem State.finish_remapSound (h : s.remapSound) : s.finish.remapSound := s.finish_calm.remapSound h

theorem State.remapSound_of_tables (h : u.tables = s.tables) (hs : s.remapSound) : u.remapSound := (Calm.of_tables h).remapSound hs

/-- With no commit in flight a sound table is all. -/
theorem State.remapSound_idle (hok : s.remap.ok) (hcommit : s.commit = none) : s.remapSound :=
  ⟨hok, fun d hd => by rw [hcommit] at hd; cases hd⟩

/-! ### The endings of a commit -/

theorem State.endCommit_remapSound (h : s.remap.ok) : s.endCommit.remapSound :=
  State.remapSound_of_tables ((State.serveWaiting_frame _).toOnlyStore.trans (State.drainCheck_frame _)).tables
    (State.remapSound_idle (s := { s with commit := none, writer := none, owner := .none }) h rfl)

theorem State.recovered_tables (s : State) (c : CommitRecord) : (s.recovered c).tables = s.tables := by
  unfold State.recovered
  split <;> rfl

theorem State.commitSucceeded_remapSound (h : s.remap.ok) (c : CommitRecord) : (s.commitSucceeded c).remapSound := by
  refine State.endCommit_remapSound ?_
  have hremap := (Prod.mk.inj ((State.recovered_tables _ c).trans (s.leaveCommitting_frame c.slot).tables)).1
  exact hremap.symm ▸ h

theorem State.pinOutcome_remapSound (h : s.remap.ok) (i : SlotIx) (add : OffsetSet) (c : CommitRecord) (cause : Byte) :
    ((s.pin i add).logPinned c cause).endCommit.remapSound := by
  refine State.endCommit_remapSound ?_
  have hremap := (Prod.mk.inj (s.pin_frame i add).tables).1
  exact hremap.symm ▸ h

/-- What every ending of a commit needs of the record: the proposed table is sound. -/
theorem State.adopt_ok (h : (s.remap.proposed c.tentative c.newlyDead).ok) : (s.adopt c).remap.ok := by
  rw [State.adopt_eq]
  exact h

theorem State.adopt_remapSound (hcommit : s.commit = some c) (hphase : c.phase = .mapWrite)
    (h : (s.remap.proposed c.tentative c.newlyDead).ok) : (s.adopt c).remapSound := by
  rw [State.adopt_eq]
  refine ⟨h, fun d hd => ?_⟩
  rw [← Option.some.inj (hcommit.symm.trans hd)]
  exact ⟨Remap.proposed_again_ok h, fun hne => absurd hphase hne, fun hsp => absurd (hphase.symm.trans hsp) nofun⟩

/-- The copy and the sequence that are current bear on nothing. -/
theorem State.makeCurrent_remapSound (h : s.remapSound) (w : MapWriter) : (s.makeCurrent w).remapSound := h

theorem State.enterDegraded_tables (s : State) (cause : Cause) : (s.enterDegraded cause).tables = s.tables :=
  (s.enterDegraded_frame cause).tables

theorem State.mapWriteSucceeded_remapSound (hcommit : s.commit = some c) (hphase : c.phase = .mapWrite)
    (h : (s.remap.proposed c.tentative c.newlyDead).ok) (w : MapWriter) : (s.mapWriteSucceeded c w).remapSound := by
  have hm : ((s.adopt c).makeCurrent w).remapSound :=
    State.makeCurrent_remapSound (State.adopt_remapSound hcommit hphase h) w
  unfold State.mapWriteSucceeded
  dsimp only
  generalize (s.adopt c).makeCurrent w = m at hm
  cases w.purpose with
  | retire => exact State.commitSucceeded_remapSound hm.1 c
  | deadOnly => exact State.pinOutcome_remapSound hm.1 _ _ _ _
  | format0 => exact hm
  | format1 => exact hm

theorem State.mapWriteFailed_remapSound (hcommit : s.commit = some c) (hphase : c.phase = .mapWrite)
    (h : (s.remap.proposed c.tentative c.newlyDead).ok) (w : MapWriter) (failing : OffsetSet) :
    (s.mapWriteFailed c w failing).remapSound := by
  have hm : (((s.adopt c).append .mapWriteFail (some c.page) (some w.attempt.target) (some (card failing))
      w.purpose.failDetail).enterDegraded .mapWriteFail).remapSound :=
    State.remapSound_of_tables (State.enterDegraded_tables _ _) (State.adopt_remapSound hcommit hphase h)
  unfold State.mapWriteFailed
  dsimp only
  generalize ((s.adopt c).append .mapWriteFail (some c.page) (some w.attempt.target) (some (card failing))
    w.purpose.failDetail).enterDegraded .mapWriteFail = m at hm
  cases w.purpose with
  | retire => exact State.commitSucceeded_remapSound hm.1 c
  | deadOnly => exact State.pinOutcome_remapSound hm.1 _ _ _ _
  | format0 => exact hm
  | format1 => exact hm

end Sys2Proof.Machine

/-! PROOF. Every step keeps the remap table sound (R104), whatever the commit in flight proposes. -/

namespace Sys2Proof.Machine

variable {s u v : State} {c d : CommitRecord} {sp : SpareIx} {w : MapWriter} {failing : OffsetSet}

/-! ### The retirement -/

theorem State.startMapWrite_calm (s : State) (c : CommitRecord) (purpose : MapPurpose) :
    Calm { s with commit := some { c with phase := .mapWrite } } (s.startMapWrite c purpose) :=
  Calm.trans (.of_tables rfl) (State.issueLoad_calm _)

theorem State.startMapWrite_remapSound (hok : s.remap.ok) (h : (s.remap.proposed c.tentative c.newlyDead).ok) (purpose : MapPurpose) :
    (s.startMapWrite c purpose).remapSound := by
  refine (s.startMapWrite_calm c purpose).remapSound ⟨hok, fun d hd => ?_⟩
  rw [← Option.some.inj hd]
  exact ⟨h, fun hne => absurd rfl hne, nofun⟩

theorem State.spareSnapshot_remapSound (hok : s.remap.ok) (h : (s.remap.proposed none c.newlyDead).ok) (htentative : c.tentative = none)
    (hfree : s.remap.freeSpare c.newlyDead = some sp) : (s.spareSnapshot c sp).remapSound := by
  obtain ⟨hlive, hdead, hnew, -⟩ := (Remap.freeSpare_iff _ _ _).1 hfree
  unfold State.spareSnapshot
  refine (State.issueLoad_calm _).remapSound ⟨hok, fun d hd => ?_⟩
  rw [← Option.some.inj hd]
  refine ⟨htentative ▸ h, fun _ => htentative, fun _ q hq => ?_⟩
  rw [← Option.some.inj hq]
  exact ⟨hlive, hdead, hnew⟩

theorem State.completeBackfill_remapSound (hs : s.remapSound) (hcommit : s.commit = some c) (hphase : c.phase ≠ .mapWrite) :
    (s.completeBackfill c).remapSound := by
  obtain ⟨hok, hrecord⟩ := id hs
  obtain ⟨hproposed, htentative, -⟩ := hrecord c hcommit
  have hnone := htentative hphase
  rw [hnone] at hproposed
  unfold State.completeBackfill
  dsimp only
  have htables := ((s.modSlot_frame c.slot fun x => x.land (fun k => s.chip.read c.attempt.target k) c.backfill).toOnlyAccess.trans
    (State.answerWaiters_frame _ c.slot)).tables
  obtain ⟨hremap, -⟩ := Prod.mk.inj htables
  split
  · rename_i sp hfree
    exact State.spareSnapshot_remapSound (hremap.symm ▸ hok) (hremap.symm ▸ hproposed) hnone hfree
  · exact State.remapSound_of_tables htables hs

theorem State.startRetirement_remapSound (hs : s.remapSound) (hcommit : s.commit = some c) (hphase : c.phase = .home)
    (failing : OffsetSet) : (s.startRetirement c failing).remapSound := by
  obtain ⟨hok, hrecord⟩ := hs
  obtain ⟨hproposed, htentative, -⟩ := hrecord c hcommit
  unfold State.startRetirement
  split
  · exact State.pinOutcome_remapSound hok _ _ _ _
  · have hm : State.remapSound { s with commit := some { c with
        phase := .retireBackfill, attempt := { c.attempt with failing := some failing }, backfill := ~~~(s.slot c.slot).present,
        homeFailing := failing } } := by
      refine ⟨hok, fun d hd => ?_⟩
      rw [← Option.some.inj hd]
      exact ⟨hproposed, fun _ => htentative (by rw [hphase]; nofun), nofun⟩
    dsimp only
    split
    · exact State.completeBackfill_remapSound hm rfl nofun
    · exact hm

theorem State.spareSuccess_remapSound (hs : s.remapSound) (hcommit : s.commit = some c) (hphase : c.phase = .spareLoad)
    (hspare : c.spare = some sp) : (s.spareSuccess c sp).remapSound := by
  obtain ⟨hok, hrecord⟩ := hs
  obtain ⟨hproposed, htentative, hfree⟩ := hrecord c hcommit
  rw [htentative (by rw [hphase]; nofun)] at hproposed
  obtain ⟨hlive, hdead, hnew⟩ := hfree hphase sp hspare
  have hnotnew := (Remap.proposed_none_ok_iff hok).1 hproposed
  unfold State.spareSuccess
  dsimp only
  split
  · rename_i e he
    have hmem : e ∈ s.remap.live ∧ e.page = c.page := by
      obtain ⟨hp, -⟩ := List.find?_eq_some_iff_append.1 he
      exact ⟨List.mem_of_find?_eq_some he, of_decide_eq_true hp⟩
    have hproposed : (s.remap.proposed (some { page := c.page, spare := sp }) (c.newlyDead ++ [e.spare])).ok := by
      refine Remap.proposed_some_ok hok hlive hdead ?_ fun x hx hpage => ?_
      · rw [List.mem_append, List.mem_singleton, not_or]
        exact ⟨hnew, (hlive e hmem.1).symm⟩
      · rw [List.mem_append, List.mem_singleton, not_or]
        refine ⟨hnotnew x hx, fun hsame => hpage ?_⟩
        obtain ⟨-, -, hspares, -⟩ := hok
        rw [eq_of_nodup_map hspares hx hmem.1 hsame, hmem.2]
    exact State.startMapWrite_remapSound (s := (s.append _ _ _ _ _).append _ _ _ _ _)
      (c := { c with tentative := some { page := c.page, spare := sp }, newlyDead := c.newlyDead ++ [e.spare] }) hok hproposed _
  · have hproposed : (s.remap.proposed (some { page := c.page, spare := sp }) c.newlyDead).ok :=
      Remap.proposed_some_ok hok hlive hdead hnew fun x hx _ => hnotnew x hx
    exact State.startMapWrite_remapSound (s := s.append _ _ _ _ _) (c := { c with tentative := some { page := c.page, spare := sp } }) hok
      hproposed _

theorem State.spareDeath_remapSound (hs : s.remapSound) (hcommit : s.commit = some c) (hphase : c.phase = .spareLoad)
    (hspare : c.spare = some sp) (failing : OffsetSet) : (s.spareDeath c sp failing).remapSound := by
  obtain ⟨hok, hrecord⟩ := hs
  obtain ⟨hproposed, htentative, hfree⟩ := hrecord c hcommit
  have hnone := htentative (by rw [hphase]; nofun)
  rw [hnone] at hproposed
  obtain ⟨hlive, -, -⟩ := hfree hphase sp hspare
  have hnotnew := (Remap.proposed_none_ok_iff hok).1 hproposed
  have hdead : (s.remap.proposed none (c.newlyDead ++ [sp])).ok := (Remap.proposed_none_ok_iff hok).2 fun x hx => by
    rw [List.mem_append, List.mem_singleton, not_or]
    exact ⟨hnotnew x hx, hlive x hx⟩
  unfold State.spareDeath
  dsimp only
  split
  · exact State.spareSnapshot_remapSound (s := s.append _ _ _ _ _) (c := { c with newlyDead := c.newlyDead ++ [sp] }) hok hdead hnone ‹_›
  · refine State.startMapWrite_remapSound (s := s.append _ _ _ _ _) (c := { c with newlyDead := c.newlyDead ++ [sp] }) hok ?_ _
    rw [hnone]
    exact hdead

/-! ### The end of a verify -/

theorem State.setAttempt_remapSound (hs : s.remapSound) (a : Attempt) : (s.setAttempt a).remapSound := (s.setAttempt_calm a).remapSound hs

theorem Remap.empty_ok (copy : Option (Fin 2)) (sequence : Option (BitVec 16)) :
    Remap.ok { live := [], dead := 0, copy := copy, sequence := sequence } :=
  ⟨Nat.zero_le _, List.nodup_nil, List.nodup_nil, fun _ h => absurd h List.not_mem_nil⟩

theorem State.formatSucceeded_remapSound (hs : s.remapSound) (hcommit : s.commit = none) (w : MapWriter) :
    (s.formatSucceeded w).remapSound := by
  unfold State.formatSucceeded
  cases w.purpose with
  | retire => exact hs
  | deadOnly => exact hs
  | format0 => exact (State.issueLoad_calm _).remapSound hs
  | format1 =>
    have hm : State.remapSound { s with remap := { live := [], dead := 0, copy := some 0, sequence := some 1 } } :=
      State.remapSound_idle (Remap.empty_ok _ _) hcommit
    exact State.remapSound_of_tables ((State.endLong_frame _ _).tables.trans (State.enterRunning_frame _).tables) hm

theorem State.formatFailed_remapSound (hs : s.remapSound) (w : MapWriter) (failing : OffsetSet) : (s.formatFailed w failing).remapSound :=
  State.remapSound_of_tables (State.endLong_frame _ _).tables hs

theorem State.verifyMap_remapSound (hs : s.remapSound) (hphase : ∀ c ∈ s.commit, c.phase = .mapWrite) (w : MapWriter)
    (failing : OffsetSet) : (s.verifyMap w failing).remapSound := by
  cases hcommit : s.commit with
  | some c =>
    obtain ⟨hproposed, -⟩ := hs.2 c hcommit
    rw [State.verifyMap_commit hcommit]
    split
    · exact State.setAttempt_remapSound hs _
    · split
      · exact State.mapWriteSucceeded_remapSound hcommit (hphase c hcommit) hproposed w
      · exact State.mapWriteFailed_remapSound hcommit (hphase c hcommit) hproposed w failing
  | none =>
    rw [State.verifyMap_format hcommit]
    split
    · exact State.setAttempt_remapSound hs _
    · split
      · exact State.formatSucceeded_remapSound hs hcommit w
      · exact State.formatFailed_remapSound hs w failing

/-- The phase of a commit with a map writer is MAP_WRITE (R67). -/
theorem State.commitSound_phase (h : s.commitSound) (hcommit : s.commit = some c) (hwriter : s.writer ≠ none) : c.phase = .mapWrite := by
  obtain ⟨-, -, -, -, hhome, hbackfill, hspare, -⟩ := h c hcommit
  cases hphase : c.phase with
  | home => exact absurd (hhome hphase).1 hwriter
  | retireBackfill => exact absurd (hbackfill hphase).1 hwriter
  | spareLoad => exact absurd (hspare hphase).1 hwriter
  | mapWrite => rfl

theorem State.verified_remapSound (hc : s.commitSound) (hs : s.remapSound) (failing : OffsetSet) : (s.verified failing).remapSound := by
  unfold State.verified
  split
  · rename_i w hwriter
    exact State.verifyMap_remapSound hs (fun c hcommit => State.commitSound_phase hc hcommit (by rw [hwriter]; nofun)) w failing
  · rename_i c _ hcommit
    split
    · rename_i hphase
      unfold State.verifyHome
      split
      · exact State.commitSucceeded_remapSound hs.1 c
      · split
        · exact State.setAttempt_remapSound hs _
        · exact State.startRetirement_remapSound hs hcommit hphase failing
    · rename_i sp hphase hspare
      unfold State.verifySpare
      split
      · exact State.spareSuccess_remapSound hs hcommit hphase hspare
      · split
        · exact State.setAttempt_remapSound hs _
        · exact State.spareDeath_remapSound hs hcommit hphase hspare failing
    · exact hs
  · exact hs

/-! ### The array timeout -/

theorem State.timeoutOutcome_remapSound (h : s.remap.ok) (c : CommitRecord) (target : Nat) (detail : Byte) (add : OffsetSet) :
    (s.timeoutOutcome c target detail add).remapSound := by
  have htables := (State.enterDegraded_tables (((s.append .arrayTimeout (some c.page) (some target) none detail).pin c.slot add).logPinned c
    pinnedByTimeout) .arrayTimeout).trans (State.pin_frame (s.append .arrayTimeout (some c.page) (some target) none detail) c.slot add).tables
  obtain ⟨hremap, -⟩ := Prod.mk.inj htables
  unfold State.timeoutOutcome
  dsimp only
  generalize State.enterDegraded _ _ = m at hremap ⊢
  have hok : m.remap.ok := by
    rw [hremap, State.append_remap]
    exact h
  exact State.remapSound_idle hok rfl

theorem State.commitTimeout_remapSound (hc : s.commitSound) (hs : s.remapSound) (hcommit : s.commit = some c) :
    (s.commitTimeout c).remapSound := by
  obtain ⟨hok, hrecord⟩ := hs
  obtain ⟨hproposed, htentative, -⟩ := hrecord c hcommit
  rw [State.commitTimeout_eq]
  cases hwriter : s.writer with
  | some w => exact State.timeoutOutcome_remapSound (State.adopt_ok hproposed) ..
  | none =>
    have hphase : c.phase ≠ .mapWrite := fun h => by
      obtain ⟨-, -, -, -, -, -, -, hmap⟩ := hc c hcommit
      exact (hmap h).1 hwriter
    rw [htentative hphase] at hproposed
    have hspare : (s.adopt { c with tentative := none }).remap.ok := State.adopt_ok (c := { c with tentative := none }) hproposed
    have hspared := State.timeoutOutcome_remapSound hspare c c.attempt.target timeoutSpare fullSet
    have hhome := State.timeoutOutcome_remapSound hok c c.attempt.target timeoutHome c.attempt.loadSet
    split
    · contradiction
    · exact hhome
    · exact hspared

end Sys2Proof.Machine

/-! PROOF. The statement on the table: a map load's table is sound, no command touches the table but RESTART, and so every step keeps
it sound. -/

namespace Sys2Proof.Machine

variable {s u v : State} {c d : CommitRecord} {sp : SpareIx}

/-! ### The map load -/

theorem ite_some_eq_none {α : Type} {p : Prop} [Decidable p] {a : α} {b : Option α} (h : (if p then some a else b) = none) :
    ¬p ∧ b = none := by
  split at h
  · exact nomatch h
  · exact ⟨‹_›, h⟩

/-- A copy that passes the tests of R124 describes a sound table. -/
theorem copyTable_ok {logical : Nat} {bytes : List Byte} (h : rejection logical bytes = none) (copy : Option (Fin 2))
    (sequence : Option (BitVec 16)) :
    Remap.ok { live := (copyTable bytes).live, dead := (copyTable bytes).dead, copy := copy, sequence := sequence } := by
  rw [rejection_eq] at h
  obtain ⟨-, h⟩ := ite_some_eq_none h
  obtain ⟨-, h⟩ := ite_some_eq_none h
  obtain ⟨hcount, h⟩ := ite_some_eq_none h
  obtain ⟨hrange, h⟩ := ite_some_eq_none h
  obtain ⟨htwice, h⟩ := ite_some_eq_none h
  obtain ⟨hdead, h⟩ := ite_some_eq_none h
  obtain ⟨hpage, -⟩ := ite_some_eq_none h
  have hbelow : ∀ k < byteNat bytes 3, placeSpare bytes k < 16 := fun k hk =>
    Nat.lt_succ_of_le (Nat.not_lt.1 fun hlt => hrange ⟨k, hk, hlt⟩)
  have hspare : ∀ k < byteNat bytes 3, (Fin.ofNat 16 (placeSpare bytes k)).val = placeSpare bytes k := fun k hk =>
    Nat.mod_eq_of_lt (hbelow k hk)
  rw [copyTable_eq]
  refine ⟨?_, ?_, ?_, fun e he => ?_⟩
  · rw [List.length_map, List.length_range]
    exact Nat.not_lt.1 hcount
  · rw [List.map_map]
    exact (nodup_map_range (placePage bytes) _).2 hpage
  · rw [List.map_map]
    refine ((List.pairwise_map (f := Fin.val) (R := (· ≠ ·))).1 ?_).imp fun hne heq => hne (congrArg Fin.val heq)
    rw [List.map_map]
    have hsame : (List.range (byteNat bytes 3)).map (Fin.val ∘ RemapEntry.spare ∘ fun k =>
        { page := placePage bytes k, spare := Fin.ofNat 16 (placeSpare bytes k) }) = (List.range (byteNat bytes 3)).map (placeSpare bytes) :=
      List.map_congr_left fun k hk => hspare k (List.mem_range.1 hk)
    rw [hsame]
    exact (nodup_map_range (placeSpare bytes) _).2 htwice
  · obtain ⟨k, hk, rfl⟩ := List.mem_map.1 he
    have hk' := List.mem_range.1 hk
    dsimp only
    rw [hspare k hk', BitVec.getLsbD_ofNat, decide_eq_true (hbelow k hk'), Bool.true_and]
    exact Bool.eq_false_iff.2 fun hbit => hdead ⟨k, hk', hbit⟩

theorem readCopy_table_ok {logical : Nat} {bytes : List Byte} {table : CopyTable} (h : readCopy logical bytes = .ok table)
    (copy : Option (Fin 2)) (sequence : Option (BitVec 16)) :
    Remap.ok { live := table.live, dead := table.dead, copy := copy, sequence := sequence } := by
  unfold readCopy at h
  split at h
  · rw [← Except.ok.inj h]
    exact Remap.empty_ok copy sequence
  · split at h
    · rw [← Except.ok.inj h]
      exact copyTable_ok ‹_› copy sequence
    · exact nomatch h

theorem select_table_ok {logical : Nat} {bytes0 bytes1 : List Byte} {copy : Fin 2} {table : CopyTable} {rejected : Option (Fin 2 × Rejection)}
    (h : select logical bytes0 bytes1 = .chosen copy table rejected) (q : Option (Fin 2)) (sequence : Option (BitVec 16)) :
    Remap.ok { live := table.live, dead := table.dead, copy := q, sequence := sequence } := by
  unfold select at h
  split at h
  · split at h
    all_goals
      obtain ⟨-, rfl, -⟩ := Selection.chosen.inj h
      exact readCopy_table_ok ‹_› q sequence
  · obtain ⟨-, rfl, -⟩ := Selection.chosen.inj h
    exact readCopy_table_ok ‹_› q sequence
  · obtain ⟨-, rfl, -⟩ := Selection.chosen.inj h
    exact readCopy_table_ok ‹_› q sequence
  · exact nomatch h

theorem State.applySelection_remapSound (hcommit : s.commit = none) (logical : Nat) (bytes0 bytes1 : List Byte) :
    (s.applySelection (select logical bytes0 bytes1)).remapSound := by
  cases hselect : select logical bytes0 bytes1 with
  | chosen copy table rejected =>
    have hm : State.remapSound { s with remap :=
        { live := table.live, dead := table.dead, copy := some copy, sequence := some table.sequence } } :=
      State.remapSound_idle (select_table_ok hselect _ _) hcommit
    unfold State.applySelection
    dsimp only
    split
    · exact State.remapSound_of_tables (State.enterRunning_frame _).tables hm
    · exact State.remapSound_of_tables (State.enterRunning_frame _).tables hm
  | invalid reason0 reason1 =>
    have hm : State.remapSound { s with remap := Remap.reset } := State.remapSound_idle (Remap.empty_ok _ _) hcommit
    exact State.remapSound_of_tables (State.enterDegraded_tables _ _) hm

/-! ### Commands -/

theorem State.respond_tables (s : State) (code : Byte) (result : Result) (payload : List Byte) :
    (s.respond code result payload).tables = s.tables := rfl

theorem State.doQuiesce_tables (s : State) : s.doQuiesce.tables = s.tables := by
  have h := (s.sealAll_frame.trans (State.clearDeadlines_frame _)).tables
  unfold State.doQuiesce
  dsimp only
  generalize s.sealAll.clearDeadlines = f at h ⊢
  split
  · rw [State.respond_tables, (State.enterQuiesced_frame _).tables]
    exact h
  · exact h

theorem State.doResume_tables (s : State) : s.doResume.tables = s.tables := by
  have h := (OnlySlots.foldl State.invalidateSlot_frame allSlots
    { s with mgmt := { s.mgmt with long := .resume }, driven := true, condition := .unsettled }).tables
  unfold State.doResume
  dsimp only
  generalize allSlots.foldl State.invalidateSlot _ = n at h ⊢
  exact h

/-- RESTART leaves the empty table and no commit. -/
theorem State.doRestart_remapSound (s : State) : s.doRestart.remapSound := by
  have hm : s.dropAll.remapSound := State.remapSound_idle (Remap.empty_ok _ _) rfl
  have hserved := (State.serveRestarted_frame s.dropAll s.waitingReads).tables
  refine State.remapSound_of_tables (s := s.dropAll) ?_ hm
  unfold State.doRestart
  exact (State.tryHold_frame _).tables.trans hserved

theorem State.doLogRead_tables (s : State) : s.doLogRead.tables = s.tables := by
  unfold State.doLogRead
  split <;> rfl

theorem State.doMapRead_tables (s : State) (args : List Byte) : (s.doMapRead args).tables = s.tables := by
  unfold State.doMapRead
  split <;> rfl

theorem State.doConfigSet_tables (s : State) (args : List Byte) : (s.doConfigSet args).tables = s.tables := by
  unfold State.doConfigSet
  dsimp only
  rw [State.respond_tables]
  split
  · exact (State.highWater_frame _).tables
  · rfl

theorem State.doRetry_tables (s : State) : s.doRetry.tables = s.tables :=
  ((s.retrySeals_frame).trans (OnlySlots.foldl (fun m i => m.moveTo_frame i .sealed) s.pinned _)).tables

theorem State.discardSlot_tables (s : State) (i : SlotIx) : (s.discardSlot i).tables = s.tables := by
  unfold State.discardSlot
  dsimp only
  rw [(State.freeSlot_frame _ i).tables]
  split <;> rfl

theorem State.doDiscard_tables (s : State) (args : List Byte) : (s.doDiscard args).tables = s.tables := by
  have hfold : ∀ (l : List SlotIx) (m : State), (l.foldl State.discardSlot m).tables = m.tables := fun l => by
    induction l with
    | nil => exact fun _ => rfl
    | cons i l ih => exact fun m => (ih _).trans (m.discardSlot_tables i)
  exact (State.serveRestarted_frame _ _).tables.trans (hfold _ s)

theorem State.effect_remapSound (hs : s.remapSound) (code : Byte) (args : List Byte) : (s.effect code args).remapSound := by
  have hkept : ∀ m : State, m.tables = s.tables → m.remapSound := fun m h => State.remapSound_of_tables h hs
  unfold State.effect
  split
  · exact hkept _ rfl
  · exact hkept _ rfl
  · exact hkept _ (s.doConfigSet_tables args)
  · exact hkept _ s.sealAll_frame.tables
  · exact hkept _ s.doQuiesce_tables
  · exact hkept _ s.doResume_tables
  · exact s.doRestart_remapSound
  · exact hkept _ s.doLogRead_tables
  · exact hkept _ rfl
  · exact hkept _ (s.doMapRead_tables args)
  · exact hkept _ (s.modPort_tables _ _)
  · exact hkept _ s.doRetry_tables
  · exact hkept _ (s.doDiscard_tables args)
  · exact hkept _ rfl
  · exact hs

theorem State.runCommand_remapSound (hs : s.remapSound) (code : Byte) (args : List Byte) (overflow : Bool) :
    (s.runCommand code args overflow).remapSound := by
  unfold State.runCommand
  split
  · exact hs
  · exact State.effect_remapSound hs code args

theorem State.commandEvent_remapSound (hs : s.remapSound) (code : Byte) (args : List Byte) : (s.commandEvent code args).remapSound := by
  unfold State.commandEvent
  split
  · exact State.finish_remapSound (State.runCommand_remapSound hs _ _ _)
  · exact hs

theorem State.endOpenWrite_remapSound (hs : s.remapSound) : s.endOpenWrite.remapSound := by
  unfold State.endOpenWrite
  split
  · unfold State.endWrite
    split
    · exact hs
    · exact State.runCommand_remapSound hs _ _ _
  · unfold State.endGeneralCall
    split
    · exact State.remapSound_of_tables s.sealAll_frame.tables hs
    · exact hs
  · exact hs
  · exact hs
  · exact hs

theorem State.formatTimeout_tables (s : State) (w : MapWriter) : (s.formatTimeout w).tables = s.tables := by
  have h := State.enterDegraded_tables (s.append .arrayTimeout none (some w.attempt.target) none timeoutMap) .arrayTimeout
  unfold State.formatTimeout
  dsimp only
  generalize State.enterDegraded _ _ = m at h ⊢
  exact (State.endLong_frame _ _).tables.trans h

/-! ### Every step -/

theorem exec_remapSound (hc : s.commitSound) (hs : s.remapSound) {i : Instr} (h : exec i s = .next u) : u.remapSound := by
  have hkept : ∀ m : State, m.tables = s.tables → m.remapSound := fun m h => State.remapSound_of_tables h hs
  have hended : ∀ m : State, m.tables = s.tables → m.finish.remapSound := fun m h => State.finish_remapSound (hkept m h)
  have hcalm : ∀ m : State, Calm s m → m.remapSound := fun m h => h.remapSound hs
  have hcommand : ∀ t code args, ((s.tick t).commandEvent code args).remapSound := fun t code args =>
    State.commandEvent_remapSound (s := s.tick t) hs code args
  have hseal : ∀ t i d, (if (s.tick t).due d then ((s.tick t).sealNamed i).finish else s.tick t).remapSound := fun t i d => by
    split
    · exact hended _ (State.sealNamed_frame _ i).tables
    · exact hs
  cases i <;> obtain rfl := Host.Outcome.next.inj h
  case accessArrival t p wr addr size wd =>
    split
    · exact hkept _ (State.modPort_tables _ p _)
    · split
      · split
        · exact hkept _ (State.modPort_tables _ p _)
        · exact hs
      · split
        · exact hs
        · exact hended _ (State.arrive_tables _ p _)
  case reqRemoved t p => exact hkept _ (State.modPort_tables _ p _)
  case rdyPulseEnd t p =>
    split
    · exact hkept _ (State.modPort_tables _ p _)
    · exact hs
  case stallExpiry t p =>
    split
    · split
      · exact hended _ ((State.serveWaiting_frame _).tables.trans (State.expireFill_tables _ p _))
      · exact hended _ ((State.serveWaiting_frame _).tables.trans (State.expireBypass_tables _ p))
      · exact hended _ ((State.answerError_frame _ p _ _).trans (State.serveWaiting_frame _)).tables
      · exact hs
    · exact hs
  case fillCompletion t worn =>
    split
    · split
      · exact hended _ ((State.endReading_tables _).trans ((State.serveWaiting_frame _).tables.trans (State.landReading_tables _ _ _)))
      · exact hs
      · exact hs
    · exact hs
  case bypassCompletion t worn =>
    split
    · split
      · exact hended _ ((State.endReading_tables _).trans (State.deliverBypass_tables _ _ _))
      · exact hs
      · exact hs
    · exact hs
  case settleExpiry t i => exact hseal t i _
  case ageExpiry t i => exact hseal t i _
  case flushRisingEdge t =>
    split
    · exact hended _ (State.sealAll_frame _).tables
    · exact hs
  case pfwAssertionEdge t =>
    split
    · exact hended _ ((State.sealAll_frame _).toOnlyAccess.trans (State.refuseWrites_frame _ _ _)).tables
    · exact hs
  case pfwDeassertionEdge t =>
    split
    · exact hkept _ rfl
    · exact hs
  case flushFallingEdge t =>
    split
    · exact hkept _ rfl
    · exact hs
  case pageLoad t =>
    split
    · exact hcalm _ ((Calm.of_tables rfl).trans (State.issueLoad_calm (s.tick t)))
    · exact hs
  case lapseEnd t =>
    split
    · split
      · exact hcalm _ (((Calm.of_tables rfl).trans (State.setAttempt_calm (s.tick t) _)).trans (.of_tables rfl))
      · exact hs
    · exact hs
  case pollRead t ended worn =>
    split
    · split
      · dsimp only
        split
        · exact hkept _ rfl
        · exact hcalm _ (((Calm.of_tables rfl).trans (State.setAttempt_calm ((s.tick t).pollArray ended worn) _)).trans (.of_tables rfl))
      · exact hs
    · exact hs
  case pollDeadlineExpiry t =>
    split
    · split
      · split
        · exact State.finish_remapSound (State.commitTimeout_remapSound (s := s.tick t) hc hs ‹_›)
        · exact hended _ (State.formatTimeout_tables _ _)
        · exact hs
      · exact hs
    · exact hs
  case verifyComplete t worn =>
    split
    · exact State.finish_remapSound (State.verified_remapSound (s := (s.tick t).observe worn) hc hs _)
    · exact hs
  case retireBackfillComplete t worn =>
    split
    · split
      · rename_i hcommit _ hphase
        exact State.finish_remapSound (State.completeBackfill_remapSound (s := (s.tick t).observe worn) hs hcommit (by rw [hphase]; nofun))
      · exact hs
      · exact hs
      · exact hs
    · exact hs
  case holdBegin t =>
    split
    · split
      · exact hkept _ rfl
      · split
        · exact hkept _ rfl
        · exact hs
    · exact hs
  case holdEnd t =>
    split
    · exact hkept _ rfl
    · exact hs
  case mapLoadEnd t worn =>
    split
    · rename_i howner
      have hnone : s.commit = none := Option.eq_none_iff_forall_ne_some.2 fun c hcommit => by
        obtain ⟨hengine, -⟩ := hc c hcommit
        exact nomatch hengine.symm.trans howner
      refine State.finish_remapSound ?_
      have hm := State.applySelection_remapSound (s := { (s.tick t).observe worn with loader := none, owner := .none }) hnone
        (logicalPages ((s.tick t).observe worn).capacity) (((s.tick t).observe worn).copyBytes 0) (((s.tick t).observe worn).copyBytes 1)
      exact State.remapSound_of_tables ((State.endLong_frame _ _).trans (State.endLong_frame _ _)).tables hm
    · exact hs
  case resetNFall t =>
    split
    · exact State.remapSound_idle (Remap.empty_ok _ _) rfl
    · exact hs
  case resetNRise t acap addr flush pfw =>
    split
    · exact hs
    · exact hkept _ (State.tryHold_frame _).tables
  case startCondition t =>
    split
    · exact State.finish_remapSound (State.remapSound_of_tables rfl (State.endOpenWrite_remapSound (s := s.tick t) hs))
    · exact hs
  case stopCondition t =>
    split
    · exact State.finish_remapSound (State.remapSound_of_tables rfl (State.endOpenWrite_remapSound (s := s.tick t) hs))
    · exact hs
  case misplacedCondition t stop =>
    split
    · exact hkept _ rfl
    · exact hs
  case addressByte t byte =>
    split
    · exact hkept _ rfl
    · exact hs
  case dataByte t byte =>
    split
    · exact hkept _ rfl
    · exact hs
  case responseByte t ack =>
    split
    · exact hkept _ rfl
    · exact hs
  case generalCallByte t byte =>
    split
    · exact hkept _ rfl
    · exact hs
  case generalCallFlush t =>
    split
    · exact hended _ (State.sealAll_frame _).tables
    · exact hs
  case unknownCommand t code args =>
    split
    · exact hcommand t code args
    · exact hs
  all_goals exact hcommand _ _ _

theorem step_remapSound (hc : s.commitSound) (hs : s.remapSound) (h : step s = .next u) : u.remapSound := by
  rcases step_cases h with ⟨-, rfl⟩ | ⟨c, rest, -, hexec⟩
  · rw [s.readMap_frame]
    exact hs
  · exact exec_remapSound (s := { s with pending := rest }) hc hs hexec

/-- Settles O22: the table's lookups by its soundness, and its soundness by what each ending of a commit makes of it. -/
theorem translationAndSpareChoice : Obligations.TranslationAndSpareChoice := by
  intro s page e newlyDead sp u hok
  obtain ⟨-, hpages, -, -⟩ := id hok
  refine ⟨fun he => State.translate_some (Remap.entry_some hpages he), fun hno => State.translate_none (Remap.entry_none hno),
    s.remap.freeSpare_iff newlyDead sp, s.remap.freeSpare_none_iff newlyDead, fun hfree hnew => ?_, step_remapSound⟩
  obtain ⟨hlive, hdead, hnotnew, -⟩ := hfree
  exact Remap.proposed_some_ok hok hlive hdead hnotnew hnew

end Sys2Proof.Machine

/-! PROOF. RESTART (R148, R149): everything is dropped, and the ports that wait are served anew on the empty slots, in arrival order. -/

namespace Sys2Proof.Machine

variable {s u v : State} {i j : SlotIx} {p q r : PortId} {acc acc2 : Access} {d : Dress}

/-! ### A read that starts again -/

/-- A read with no slot that carries its page takes an allocatable one, and keeps its stall deadline (R16, R32, R44). -/
theorem State.readPath_rereads (hpage : s.uncarried acc.page) (hreadable : s.readable) (hcoll : s.collectionsOk) (htakes : s.takes j)
    (hstall : (s.port p).stall ≠ none) : s.readPath p acc = s.rereads p acc j := by
  have hport : ∀ q, (s.allocate j acc.page).port q = s.port q := fun q => (State.allocate_frame _ j acc.page).port q
  have hfull : ~~~(0 : OffsetSet) = fullSet := by decide
  rw [State.readPath_uncarried hpage]
  unfold State.readMiss
  rw [State.arrayUnavailable_none hreadable, State.allocatable_of_takes htakes]
  dsimp only
  rw [State.waitOnSlot_again (by rw [hport]; exact hstall), hport, State.slot_allocate_same, State.allocate_eq hcoll htakes,
    if_pos (by rfl)]
  simp only [Vector.set_set, Slot.emptied, Option.getD_none, hfull]
  rfl

theorem State.answerError_dress (s : State) (d : Dress) (p : PortId) (reason : Reason) (detail : Detail) :
    (s.dress d).answerError p reason detail = (s.answerError p reason detail).dress d := by
  cases p <;> rfl

theorem State.enterWait_dress (s : State) (d : Dress) (p : PortId) (acc : Access) (st : PortState) (w : Option SlotIx) :
    (s.dress d).enterWait p acc st w = (s.enterWait p acc st w).dress d := by
  cases p <;> rfl

theorem State.waitOnSlot_dress (s : State) (d : Dress) (i : SlotIx) (p : PortId) (acc : Access) :
    (s.dress d).waitOnSlot i p acc = (s.waitOnSlot i p acc).dress d := by
  have hfill : (s.dress d).requestFill i = (s.requestFill i).dress d := by
    unfold State.requestFill
    rw [State.slot_dress]
    cases (s.slot i).fillPending <;> rfl
  unfold State.waitOnSlot
  rw [hfill]
  exact State.enterWait_dress ((s.requestFill i).modSlot i fun x => x.setWait p (some acc.offsets)) d p acc .waitFill (some i)

theorem State.readMiss_dress (s : State) (d : Dress) (p : PortId) (acc : Access) (found : Option SlotIx) :
    (s.dress d).readMiss p acc found = (s.readMiss p acc found).dress d := by
  unfold State.readMiss
  show (match s.arrayUnavailable with | some detail => _ | none => _) = _
  cases s.arrayUnavailable with
  | some detail => exact State.answerError_dress s d p _ _
  | none =>
    cases found with
    | some i => exact State.waitOnSlot_dress s d i p acc
    | none =>
      dsimp only
      rw [State.allocatable_dress]
      cases s.allocatable with
      | some i =>
        show ((s.dress d).allocate i acc.page).waitOnSlot i p acc = _
        rw [State.allocate_dress, State.waitOnSlot_dress]
      | none => exact State.enterWait_dress { s with requests := s.requests ++ [.bypass p] } d p acc .waitBypass none

theorem State.readPath_dress (s : State) (d : Dress) (p : PortId) (acc : Access) :
    (s.dress d).readPath p acc = (s.readPath p acc).dress d := by
  unfold State.readPath
  rw [State.lookup_dress]
  cases s.lookup acc.page with
  | none => exact State.readMiss_dress s d p acc none
  | some i =>
    dsimp only
    rw [State.slot_dress, ← State.ite_dress, State.readMiss_dress]
    refine ite_of_iff Iff.rfl ?_ rfl
    unfold State.readHit
    rw [State.touch_dress, State.answer_dress]
    rfl

/-! ### The ports served anew -/

/-- One port served by the rule of a restart: its read from the lookup, or its write waiting for a slot. -/
def State.serveAnew (reads : List PortId) (s : State) (p : PortId) : State :=
  if reads.contains p then
    match (s.port p).access with
    | some acc => s.readPath p acc
    | none => s
  else s.serveWrite p

theorem State.serveRestarted_eq (s : State) (reads : List PortId) : s.serveRestarted reads = s.portsByArrival.foldl (State.serveAnew reads) s :=
  rfl

theorem State.serveAnew_read {reads : List PortId} (h : p ∈ reads) (hacc : (s.port p).access = some acc) :
    State.serveAnew reads s p = s.readPath p acc := by
  unfold State.serveAnew
  rw [if_pos (List.elem_iff.2 h), hacc]

theorem State.serveAnew_write {reads : List PortId} (h : p ∉ reads) : State.serveAnew reads s p = s.serveWrite p := by
  unfold State.serveAnew
  rw [if_neg fun hin => h (List.elem_iff.1 hin)]

theorem State.serveAnew_dress (reads : List PortId) (s : State) (p : PortId) :
    State.serveAnew reads (s.dress d) p = (State.serveAnew reads s p).dress d := by
  unfold State.serveAnew
  rw [State.port_dress, State.serveWrite_dress, ← State.ite_dress]
  refine ite_of_iff Iff.rfl ?_ rfl
  cases (s.port p).access with
  | none => rfl
  | some acc => exact State.readPath_dress s d p acc

theorem State.serveRestarted_dress (s : State) (reads : List PortId) : (s.dress d).serveRestarted reads = (s.serveRestarted reads).dress d :=
  State.foldl_dress (State.serveAnew_dress reads) s.portsByArrival s

/-- The earlier arrival is served first. -/
theorem State.serveRestarted_both (reads : List PortId) (hpq : p ≠ q) (hp : (s.port p).access = some acc) (hq : (s.port q).access = some acc2)
    (h : match (generalizing := false) p with | .a => acc.order ≤ acc2.order | .b => acc.order < acc2.order) :
    s.serveRestarted reads = State.serveAnew reads (State.serveAnew reads s p) q := by
  rw [State.serveRestarted_eq]
  cases p <;> cases q
  · exact absurd rfl hpq
  · rw [State.portsByArrival_both hp hq, if_neg (Nat.not_lt.2 h)]
    rfl
  · rw [State.portsByArrival_both hq hp, if_pos h]
    rfl
  · exact absurd rfl hpq

/-- A port that waits for nothing is passed over. -/
theorem State.serveRestarted_one {reads : List PortId} (hpq : p ≠ q) (hidle : ∀ m : State, m.port q = s.port q → State.serveAnew reads m q = m)
    (hkept : (State.serveAnew reads s p).port q = s.port q) : s.serveRestarted reads = State.serveAnew reads s p := by
  have hboth : ∀ l, l = [p, q] ∨ l = [q, p] → l.foldl (State.serveAnew reads) s = State.serveAnew reads s p := fun l hl => by
    rcases hl with rfl | rfl
    · exact hidle _ hkept
    · exact congrArg (fun m => State.serveAnew reads m p) (hidle s rfl)
  refine (State.serveRestarted_eq s reads).trans (hboth _ ?_)
  have horder : s.portsByArrival = [.a, .b] ∨ s.portsByArrival = [.b, .a] := by
    unfold State.portsByArrival
    split
    · split
      · exact .inr rfl
      · exact .inl rfl
    · exact .inl rfl
  cases p <;> cases q
  · exact absurd rfl hpq
  · exact horder
  · exact horder.symm
  · exact absurd rfl hpq

end Sys2Proof.Machine

/-! PROOF. The statement on RESTART: what it drops, and the waiting accesses served on empty slots. -/

namespace Sys2Proof.Machine

variable {s u v : State} {i j : SlotIx} {p q r : PortId} {acc acc2 : Access} {d : Dress}

/-! ### What RESTART drops -/

/-- The hold begins in the event of the RESTART: RESET_N high, the quiet moment reached and nothing being read (R140). -/
abbrev State.restartHolds (s : State) : Prop := s.resetN = true ∧ s.quietMoment ≤ s.now ∧ s.orphanRead = none

/-- What RESTART does after the waiting accesses are served: its record, the hold when it can begin, and its answer. -/
def State.restarting (s : State) : Dress where
  log := fun l => l.append .restarted none none none s.store.state.code
  mgmt := fun g => { g with response := [0x01, 0x07] }
  phase := fun f => if s.restartHolds then some .hold else f
  hold := fun h => if s.restartHolds then some (s.now + Config.hold) else h

/-- The store record that RESTART leaves before the hold can begin. -/
theorem OnlyAccess.restart_end (h : OnlyAccess s.dropAll u) :
    (u.append .restarted none none none s.store.state.code).tryHold.respond 0x07 .accepted [] = u.dress s.restarting := by
  have hnow : u.now = s.now := h.now
  have hreset : u.resetN = s.resetN := by rw [h]; rfl
  have hstore : u.store = s.dropAll.store := by rw [h]
  have hreading : u.reading = s.orphanRead := by rw [h]; rfl
  have hquiet : u.store.quiet ≤ u.now ↔ s.dropAll.store.quiet ≤ s.now := by rw [hstore, hnow]
  rw [State.tryHold_eq]
  unfold State.dress State.restarting
  dsimp only
  by_cases hholds : s.restartHolds
  · obtain ⟨hr, hq, ho⟩ := id hholds
    rw [if_pos ⟨hreset.trans hr, congrArg Store.state hstore, congrArg Store.phase hstore,
      hquiet.2 hq, hreading.trans ho⟩, if_pos hholds, if_pos hholds, ← hnow]
    rfl
  · rw [if_neg fun ⟨hr, _, _, hq, ho⟩ => hholds ⟨hreset.symm.trans hr, hquiet.1 hq,
      hreading.symm.trans ho⟩, if_neg hholds, if_neg hholds]
    rfl

theorem State.doRestart_eq (s : State) :
    s.doRestart = ((s.dropAll.dress s.restarting).serveRestarted s.waitingReads).orderRequests 0 := by
  rw [State.serveRestarted_dress]
  exact ((State.serveRestarted_frame s.dropAll s.waitingReads).trans (State.orderRequests_frame _ 0)).restart_end

/-- The requests made in the event stand in the order of R92 already. -/
theorem State.orderRequests_sorted (h : s.requests.foldr insertRequest [] = s.requests) : s.orderRequests 0 = s := by
  unfold State.orderRequests
  rw [List.take_zero, List.nil_append, List.drop_zero, h]

/-! ### Serving on empty slots -/

/-- Every slot is as pin reset leaves it, nothing is requested, and the store is STARTING. -/
structure State.Cleared (s : State) : Prop where
  slots : s.slots = State.reset.slots
  freeList : s.freeList = State.reset.freeList
  recency : s.recency = []
  ageList : s.ageList = []
  queue : s.queue = []
  pinned : s.pinned = []
  requests : s.requests = []
  store : s.store.state = .starting

theorem State.Cleared.slot (h : s.Cleared) (i : SlotIx) : s.slot i = Slot.reset := by
  unfold State.slot
  rw [h.slots]
  exact State.slot_clearSlots s i

theorem State.Cleared.uncarried (h : s.Cleared) (page : Nat) : s.uncarried page := fun i ⟨hstate, _⟩ => hstate (by rw [h.slot]; rfl)

theorem State.Cleared.collectionsOk (h : s.Cleared) : s.collectionsOk :=
  State.collectionsOk_congr (State.clearSlots_collectionsOk s) (fun i => by rw [h.slot, State.slot_clearSlots]) fun c => by
    cases c
    · exact h.freeList
    · exact h.recency
    · exact h.ageList
    · exact h.queue
    · rfl
    · exact h.pinned

theorem State.Cleared.takes (h : s.Cleared) : s.takes 0 := .inl (by rw [h.freeList]; rfl)

theorem State.Cleared.readable (h : s.Cleared) : s.readable := ⟨by rw [h.store]; nofun, fun hd => absurd (h.store.symm.trans hd.1) nofun⟩

/-- The slot of a write served first after a RESTART. -/
def restartedWrite (acc : Access) (now : Time) : Slot :=
  { Slot.reset with page := some acc.page, state := .dirty, image := Page.put zeroPage acc.offset acc.bytes, present := acc.offsets
                    dirty := acc.offsets, dirtySince := some now }

/-- The slot of a read served first after a RESTART. -/
def restartedRead (p : PortId) (acc : Access) : Slot :=
  Slot.setWait { Slot.reset with page := some acc.page, state := .clean, fillPending := some fullSet } p (some acc.offsets)

/-- A write that takes a slot while nothing is sealed for high water. -/
theorem State.writeInto_idle (hpage : s.uncarried acc.page) (hcoll : s.collectionsOk) (htakes : s.takes i) (hworks : ¬s.works) :
    s.writeInto p acc = (State.enterAgeList { s with
      freeList := s.freeList.erase i, recency := s.recency.erase i, slots := s.slots.set i.val (s.freshlyWritten (s.slot i) acc) } i).setPort p
        (s.okTo p) := by
  rw [State.writeInto_uncarried hpage hcoll htakes]
  dsimp only
  have hstore : (State.enterAgeList { s with
    freeList := s.freeList.erase i, recency := s.recency.erase i, slots := s.slots.set i.val (s.freshlyWritten (s.slot i) acc) } i).store =
      s.store := rfl
  generalize State.enterAgeList _ i = m at hstore ⊢
  rw [State.overflow, if_neg (by rw [State.works, hstore]; exact hworks), State.sealedTo_nil]

theorem State.Cleared.serveWrite (h : s.Cleared) (hstate : (s.port p).state = .waitSlot) (hacc : (s.port p).access = some acc)
    {now : Time} (hnow : s.now = now) :
    s.serveWrite p = State.setPort { s with freeList := State.reset.freeList.tail, ageList := [0]
                                            slots := State.reset.slots.set 0 (restartedWrite acc now) } p
      ((s.port p).answering now .none 0 (s.port p).lastError) := by
  subst hnow
  have hworks : ¬s.works := fun hw => by
    rw [State.works, h.store] at hw
    rcases hw with hw | hw <;> exact nomatch hw
  have hrunning : ¬s.store.state = .running := fun hr => hworks (.inl hr)
  have hslot : s.freshlyWritten (s.slot 0) acc = restartedWrite acc s.now := by
    unfold State.freshlyWritten State.newSettle State.newAge
    rw [h.slot, if_neg hrunning, if_neg hrunning]
    rfl
  have hrecency : s.recency.erase 0 = s.recency := by rw [h.recency]; rfl
  rw [State.serveWrite_waiting hstate hacc, State.writeInto_idle (h.uncarried _) h.collectionsOk h.takes hworks, hslot, hrecency]
  unfold State.enterAgeList
  dsimp only
  rw [h.slots, h.freeList, h.ageList]
  rfl

theorem State.Cleared.rereads (h : s.Cleared) : s.rereads p acc 0 = State.setPort
    { s with freeList := State.reset.freeList.tail, recency := [0], requests := [.fill 0]
             slots := State.reset.slots.set 0 (restartedRead p acc) } p
    { s.port p with state := .waitFill, waited := some 0 } := by
  unfold State.rereads
  rw [h.slot, h.slots, h.freeList, h.recency, h.requests]
  rfl

theorem State.mem_waitingReads : p ∈ s.waitingReads ↔ (s.port p).state = .waitFill ∨ (s.port p).state = .waitBypass := by
  have hp : p ∈ [PortId.a, PortId.b] := by cases p <;> simp
  unfold State.waitingReads
  rw [List.mem_filter, and_iff_right hp, Bool.or_eq_true, decide_eq_true_iff, decide_eq_true_iff]

/-- The first waiting access as it is served on the empty slots. -/
def State.servedFirst (s : State) (p : PortId) (acc : Access) : State :=
  if (s.port p).state = .waitSlot then s.serveWrite p else s.rereads p acc 0

theorem State.Cleared.serveAnew (h : s.Cleared) {reads : List PortId}
    (hreads : p ∈ reads ↔ (s.port p).state = .waitFill ∨ (s.port p).state = .waitBypass) (hidle : (s.port p).state ≠ .idle)
    (hacc : (s.port p).access = some acc) (hstall : (s.port p).state ≠ .waitSlot → (s.port p).stall ≠ none) :
    State.serveAnew reads s p = s.servedFirst p acc := by
  unfold State.servedFirst
  by_cases hslot : (s.port p).state = .waitSlot
  · rw [if_pos hslot, State.serveAnew_write fun hin => ?_]
    rcases hreads.1 hin with hw | hw <;> exact nomatch hslot.symm.trans hw
  · have hin : p ∈ reads := hreads.2 (by
      cases hs : (s.port p).state with
      | idle => exact absurd hs hidle
      | waitFill => exact .inl rfl
      | waitBypass => exact .inr rfl
      | waitSlot => exact absurd hs hslot)
    rw [if_neg hslot, State.serveAnew_read hin hacc,
      State.readPath_rereads (h.uncarried _) h.readable h.collectionsOk h.takes (hstall hslot)]

/-- What the second waiting access finds once the first was served: slot 0 taken, and the other slots as RESTART left them. -/
structure State.OneServed (s : State) (p : PortId) (acc : Access) (u : State) : Prop where
  page : (u.slot 0).page = some acc.page
  held : (u.slot 0).state = .dirty ∨ (u.slot 0).state = .clean ∧ (u.slot 0).present = 0
  others : ∀ j : SlotIx, j ≠ 0 → (u.slot j).state = .free
  freeList : u.freeList = State.reset.freeList.tail
  store : u.store = s.store
  now : u.now = s.now
  requests : u.requests = [] ∧ (u.slot 0).fillPending = none ∨ u.requests = [.fill 0] ∧ (u.slot 0).fillPending ≠ none
  port : ∀ q, p ≠ q → u.port q = s.port q
  coll : u.collectionsOk

theorem slot_of_set (x : Slot) (s : State) (h : s.slots = State.reset.slots.set 0 x) (j : SlotIx) :
    s.slot j = if j = 0 then x else Slot.reset := by
  have hset : s.slot j = ({ State.reset with slots := State.reset.slots.set 0 x } : State).slot j := congrArg (fun v => v[j.val]) h
  rw [hset]
  refine (State.slot_setSlot State.reset 0 j x).trans (ite_of_iff eq_comm rfl ?_)
  exact State.slot_clearSlots State.reset j

theorem State.Cleared.servedFirst_coll (h : s.Cleared) : (s.servedFirst p acc).collectionsOk ∨ (s.port p).stall = none := by
  unfold State.servedFirst
  split
  · exact .inl ((State.serveWrite_edits (k := ⟨none, false, false, false, false, false, []⟩) (o := s) s p).keeps
      (fun _ _ he => he.collectionsOk) h.collectionsOk)
  · by_cases hstall : (s.port p).stall = none
    · exact .inr hstall
    · refine .inl ?_
      rw [← State.readPath_rereads (h.uncarried _) h.readable h.collectionsOk h.takes hstall]
      exact (State.readPath_edits (k := ⟨none, false, false, false, false, false, []⟩) (o := s) p acc (.inl rfl)).keeps
        (fun _ _ he => he.collectionsOk) h.collectionsOk

theorem State.Cleared.oneServed (h : s.Cleared) (hacc : (s.port p).access = some acc) (hstall : (s.port p).stall ≠ none) :
    s.OneServed p acc (s.servedFirst p acc) := by
  have hcoll := (h.servedFirst_coll (p := p) (acc := acc)).resolve_right hstall
  unfold State.servedFirst at hcoll ⊢
  split at hcoll
  · rename_i hslot
    rw [if_pos hslot]
    rw [h.serveWrite hslot hacc rfl] at hcoll ⊢
    have hs := slot_of_set (restartedWrite acc s.now) (State.setPort { s with
      freeList := State.reset.freeList.tail, ageList := [0], slots := State.reset.slots.set 0 (restartedWrite acc s.now) } p
      ((s.port p).answering s.now .none 0 (s.port p).lastError)) (by cases p <;> rfl)
    refine { page := ?_, held := .inl ?_, others := fun j hj => ?_, freeList := ?_, store := ?_, now := ?_, requests := .inl ⟨?_, ?_⟩
             port := fun q hq => ?_, coll := hcoll }
    · rw [hs, if_pos rfl]; rfl
    · rw [hs, if_pos rfl]; rfl
    · rw [hs, if_neg hj]; rfl
    · cases p <;> rfl
    · cases p <;> rfl
    · cases p <;> rfl
    · cases p <;> exact h.requests
    · rw [hs, if_pos rfl]; rfl
    · rw [State.port_setPort_ne _ _ hq]; cases q <;> rfl
  · rename_i hslot
    rw [if_neg hslot]
    rw [h.rereads] at hcoll ⊢
    have hs := slot_of_set (restartedRead p acc) (State.setPort { s with
      freeList := State.reset.freeList.tail, recency := [0], requests := [.fill 0], slots := State.reset.slots.set 0 (restartedRead p acc) } p
      { s.port p with state := .waitFill, waited := some 0 }) (by cases p <;> rfl)
    refine { page := ?_, held := .inr ⟨?_, ?_⟩, others := fun j hj => ?_, freeList := ?_, store := ?_, now := ?_
             requests := .inr ⟨?_, ?_⟩, port := fun q hq => ?_, coll := hcoll }
    · rw [hs, if_pos rfl]; cases p <;> rfl
    · rw [hs, if_pos rfl]; cases p <;> rfl
    · rw [hs, if_pos rfl]; cases p <;> rfl
    · rw [hs, if_neg hj]; rfl
    · cases p <;> rfl
    · cases p <;> rfl
    · cases p <;> rfl
    · cases p <;> rfl
    · rw [hs, if_pos rfl]; cases p <;> nofun
    · rw [State.port_setPort_ne _ _ hq]; cases q <;> rfl

section

variable (h : s.OneServed p acc u)

include h

theorem State.OneServed.takes : u.takes 1 := .inl (by rw [h.freeList]; rfl)

theorem State.OneServed.carrier : u.soleCarrier 0 acc.page := by
  refine ⟨⟨?_, h.page⟩, fun j hj => ?_⟩
  · rcases h.held with hs | ⟨hs, -⟩ <;> rw [hs] <;> nofun
  · refine Classical.byContradiction fun hne => ?_
    exact hj.1 (h.others j hne)

theorem State.OneServed.uncarried {page : Nat} (hne : page ≠ acc.page) : u.uncarried page := fun j ⟨hstate, hpage⟩ => by
  by_cases hj : j = 0
  · subst hj
    exact hne (Option.some.inj (hpage.symm.trans h.page))
  · exact hstate (h.others j hj)

/-- The requests made so far stand in the order of R92, with or without slot 1's fill behind them. -/
theorem State.OneServed.sorted : (u.requests.foldr insertRequest [] = u.requests) ∧
    (u.requests ++ [Request.fill 1]).foldr insertRequest [] = u.requests ++ [Request.fill 1] := by
  rcases h.requests with ⟨hr, -⟩ | ⟨hr, -⟩ <;> rw [hr] <;> exact ⟨rfl, rfl⟩

end

end Sys2Proof.Machine

/-! PROOF. The statement on RESTART, clause by clause. -/

namespace Sys2Proof.Machine

variable {s u v : State} {i j : SlotIx} {p q r : PortId} {acc acc2 : Access} {d : Dress}

theorem State.orphanRead_eq (s : State) : s.orphanRead =
    if s.reading = none ∧ s.owner = .mapLoader
    then some { kind := .mapRead, page := mapPage s.capacity (s.loader.getD MapLoader.fresh).next.1
                offsets := span (s.loader.getD MapLoader.fresh).next.2 1, dropped := true }
    else s.reading.map fun g => { g with dropped := true } := by
  unfold State.orphanRead
  cases s.reading with
  | some g => rfl
  | none => exact ite_of_iff (and_iff_right rfl).symm rfl rfl

theorem State.restartCondition_eq (s : State) :
    s.restartCondition = if s.driven = true ∧ s.condition = .idle then .idle else .unsettled := by
  unfold State.restartCondition
  cases s.driven <;> cases s.condition <;> rfl

/-- RESTART, run. -/
theorem exec_restart (t : Time) (hreset : s.resetN = true) (hlong : s.mgmt.long = .none ∨ s.mgmt.long = .quiesce) :
    exec (.restart t []) s = .next (((((s.tick t).dropAll.dress (s.tick t).restarting).serveRestarted s.waitingReads).orderRequests 0).finish) := by
  have hpasses : s.refusal 7 [] false = none :=
    State.refusal_none_of s _ (by decide) rfl (by rcases hlong with h | h <;> simp [State.refusesLong, h]) (by simp [argumentRefused])
      (by simp [State.stateRefuses]) (by simp)
  refine (exec_commandRow_passes t (code := 7) (args := []) hreset (by simp) hpasses).trans ?_
  exact congrArg (fun m => Host.Outcome.next (State.finish m)) (s.tick t).doRestart_eq

theorem State.dropped_cleared (s : State) (d : Dress) : (s.dropAll.dress d).Cleared :=
  { slots := rfl, freeList := rfl, recency := rfl, ageList := rfl, queue := rfl, pinned := rfl, requests := rfl, store := rfl }

theorem State.dropped_port (s : State) (t : Time) (p : PortId) :
    ((s.tick t).dropAll.dress (s.tick t).restarting).port p = s.port p := by cases p <;> rfl

/-- A read that joins the slot served first, or waits on it. -/
theorem State.readPath_joins (hcarrier : s.soleCarrier i acc.page) (hsub : ¬subset acc.offsets (s.slot i).present = true)
    (hreadable : s.readable) (hstall : (s.port p).stall ≠ none) : s.readPath p acc = s.waitOnSlot i p acc := by
  rw [State.readPath_missing hcarrier hsub]
  unfold State.readMiss
  rw [State.arrayUnavailable_none hreadable]

theorem subset_empty {x : OffsetSet} (h : subset x 0 = true) : x = 0 := by
  have := of_decide_eq_true h
  rw [← this]
  exact BitVec.and_zero

/-- Settles O59: what is dropped, and then the waiting accesses on slot 0 and slot 1. -/
theorem restartDropsAllButTheRecords : Obligations.RestartDropsAllButTheRecords := by
  intro t s p acc q acc2 hreset hlong now quiet next reading begins r m h idle earlier slot0
  have hreading : (s.tick t).orphanRead = reading := State.orphanRead_eq (s.tick t)
  have hquiet : (s.tick t).quietMoment = quiet := State.quietMoment_eq (s.tick t)
  have hholds : (s.tick t).restartHolds ↔ begins := by
    rw [State.restartHolds, hreading, hquiet]
    exact and_iff_right hreset
  have hm : (s.tick t).dropAll.dress (s.tick t).restarting = m := by
    unfold State.dress State.restarting State.dropAll
    dsimp only
    by_cases hb : begins
    · rw [if_pos (hholds.2 hb), if_pos (hholds.2 hb), hreading, hquiet, State.restartCondition_eq]
      simp only [m, if_pos hb]
      rfl
    · rw [if_neg (mt hholds.1 hb), if_neg (mt hholds.1 hb), hreading, hquiet, State.restartCondition_eq]
      simp only [m, if_neg hb]
      rfl
  have hcleared : m.Cleared := hm ▸ State.dropped_cleared _ _
  have hport : ∀ x, m.port x = s.port x := fun x => by rw [← hm]; exact State.dropped_port s t x
  have hnow : m.now = now := rfl
  have hexec := exec_restart t hreset hlong
  rw [hm] at hexec
  clear_value m
  have hended : ∀ u, m.serveRestarted s.waitingReads = u → u.requests.foldr insertRequest [] = u.requests →
      exec (.restart t []) s = .next u.finish := fun u hu hsorted => by
    rw [hexec, hu, State.orderRequests_sorted hsorted]
  have hpass : ∀ x, (s.port x).state = .idle → ∀ v : State, v.port x = m.port x → State.serveAnew s.waitingReads v x = v :=
    fun x hx v hv => by
      have hv' : (v.port x).state = .idle := by rw [hv, hport, hx]
      rw [State.serveAnew_write fun hin => ?_, State.serveWrite_other (by rw [hv']; nofun)]
      rcases State.mem_waitingReads.1 hin with hw | hw <;> exact nomatch hx.symm.trans hw
  have hreads : ∀ x, x ∈ s.waitingReads ↔ (m.port x).state = .waitFill ∨ (m.port x).state = .waitBypass := fun x => by
    rw [hport]
    exact State.mem_waitingReads
  have hother : idle → ∃ o, p ≠ o ∧ (s.port o).state = .idle := fun hi => by
    cases p
    · exact ⟨.b, nofun, hi⟩
    · exact ⟨.a, nofun, hi⟩
  refine ⟨fun hA hB => ?_, fun hi hslot hacc _ => ?_, fun hi hread hacc hstall _ => ?_, fun hpq hfirst hp hq hacc hacc2 hstall hstall2 _ hoff => ?_⟩
  · have hserved := State.serveRestarted_one (s := m) (p := .a) (q := .b) nofun (fun v hv => hpass .b hB v hv)
      (congrArg (fun v => State.port v .b) (hpass .a hA m rfl))
    rw [hpass .a hA m rfl] at hserved
    exact hended m hserved (by rw [hcleared.requests]; rfl)
  · obtain ⟨o, hpo, ho⟩ := hother hi
    have hslot' : (m.port p).state = .waitSlot := by rw [hport, hslot]
    have hacc' : (m.port p).access = some acc := by rw [hport, hacc]
    have hfirst := hcleared.serveAnew (hreads p) (by rw [hslot']; nofun) hacc' fun hne => absurd hslot' hne
    rw [State.servedFirst, if_pos hslot', hcleared.serveWrite hslot' hacc' hnow, hport] at hfirst
    have hserved := State.serveRestarted_one (s := m) hpo (fun v hv => hpass o ho v hv)
      (by rw [hfirst, State.port_setPort_ne _ _ hpo]; cases o <;> rfl)
    rw [hfirst] at hserved
    refine hended _ hserved ?_
    cases p <;> exact (by rw [hcleared.requests]; rfl)
  · obtain ⟨o, hpo, ho⟩ := hother hi
    have hslot' : (m.port p).state ≠ .waitSlot := by rw [hport]; rcases hread with hw | hw <;> rw [hw] <;> nofun
    have hacc' : (m.port p).access = some acc := by rw [hport, hacc]
    have hfirst := hcleared.serveAnew (hreads p) (by rw [hport]; rcases hread with hw | hw <;> rw [hw] <;> nofun) hacc' fun _ => by
      rw [hport]; exact hstall
    rw [State.servedFirst, if_neg hslot', hcleared.rereads, hport] at hfirst
    have hserved := State.serveRestarted_one (s := m) hpo (fun v hv => hpass o ho v hv)
      (by rw [hfirst, State.port_setPort_ne _ _ hpo]; cases o <;> rfl)
    rw [hfirst] at hserved
    refine hended _ hserved ?_
    cases p <;> rfl
  · intro serve first y joined answer
    have hacc' : (m.port p).access = some acc := by rw [hport, hacc]
    have hstall' : (m.port p).stall ≠ none := by rw [hport]; exact hstall
    have hfirsteq : first = m.servedFirst p acc := by
      unfold State.servedFirst
      rw [hport]
    have hone : m.OneServed p acc first := hfirsteq ▸ hcleared.oneServed hacc' hstall'
    have hq' : first.port q = s.port q := (hone.port q hpq).trans (hport q)
    have hserved : m.serveRestarted s.waitingReads = State.serveAnew s.waitingReads first q := by
      rw [State.serveRestarted_both _ hpq hacc' (by rw [hport]; exact hacc2) hfirst,
        hcleared.serveAnew (hreads p) (by rw [hport]; exact hp) hacc' fun _ => hstall', hfirsteq]
    have hwrite : (s.port q).state = .waitSlot → State.serveAnew s.waitingReads first q = first.serveWrite q := fun hs =>
      State.serveAnew_write fun hin => by rcases State.mem_waitingReads.1 hin with hw | hw <;> exact nomatch hs.symm.trans hw
    have hread : (s.port q).state ≠ .waitSlot → State.serveAnew s.waitingReads first q = first.readPath q acc2 := fun hs =>
      State.serveAnew_read (State.mem_waitingReads.2 (by
        cases hst : (s.port q).state with
        | idle => exact absurd hst hq
        | waitFill => exact .inl rfl
        | waitBypass => exact .inr rfl
        | waitSlot => exact absurd hst hs)) (by rw [hq']; exact hacc2)
    have hreadable : first.readable := by
      rw [State.readable, hone.store]
      exact hcleared.readable
    have hstall2' : (first.port q).stall ≠ none := by rw [hq']; exact hstall2
    clear_value first
    refine ⟨fun hne => ?_, fun _ hs => ?_, fun hsame hs => ⟨fun hsub => ?_, fun hsub => ?_⟩⟩
    · by_cases hs : (s.port q).state = .waitSlot
      · refine hended _ (hserved.trans ((hwrite hs).trans (if_pos hs).symm)) ?_
        rw [show serve 1 q acc2 first = first.serveWrite q from if_pos hs, State.serveWrite_requests]
        exact hone.sorted.1
      · have hreread := (hread hs).trans (State.readPath_rereads (hone.uncarried hne) hreadable hone.coll hone.takes hstall2')
        refine hended _ (hserved.trans (hreread.trans (if_neg hs).symm)) ?_
        rw [show serve 1 q acc2 first = first.rereads q acc2 1 from if_neg hs]
        cases q <;> exact hone.sorted.2
    · refine hended _ (hserved.trans (hwrite hs)) ?_
      rw [State.serveWrite_requests]
      exact hone.sorted.1
    · have hcarrier : first.soleCarrier 0 acc2.page := hsame ▸ hone.carrier
      have hdirty : (first.slot 0).state = .dirty := hone.held.resolve_right fun hclean => hoff (subset_empty (by
        rw [← hclean.2]
        exact hsub))
      have hhit := State.readPath_hit (p := q) hcarrier hsub fun hne => absurd hdirty hne
      rw [if_neg (by rw [hdirty]; nofun)] at hhit
      have hnow' : first.now = now := hone.now.trans hnow
      refine hended _ (hserved.trans ((hread hs).trans (hhit.trans (congrArg (State.setPort first q) ?_)))) ?_
      · rw [hq', hnow']
      · cases q <;> exact hone.sorted.1
    · have hcarrier : first.soleCarrier 0 acc2.page := hsame ▸ hone.carrier
      have hjoin := State.readPath_joins (p := q) hcarrier (by rw [Bool.not_eq_true]; exact hsub) hreadable hstall2'
      rw [State.waitOnSlot_again hstall2', hq'] at hjoin
      refine hended _ (hserved.trans ((hread hs).trans hjoin)) ?_
      have hreqs : (if (first.slot 0).fillPending = none then first.requests ++ [.fill 0] else first.requests) = [.fill 0] := by
        rcases hone.requests with ⟨hr, hf⟩ | ⟨hr, hf⟩
        · rw [if_pos hf, hr]; rfl
        · rw [if_neg hf, hr]
      cases q <;> exact (by rw [hreqs]; rfl)

end Sys2Proof.Machine

/-! PROOF. RETRY (R64, R180), and the PINNED slots of a list discarded (R22, R98, R160). -/

namespace Sys2Proof.Machine

variable {s u : State} {i : SlotIx} {p : PortId} {acc : Access}

/-! ### RETRY -/

theorem exists_mem_cons_iff {α : Type} {P : α → Prop} {a : α} {l : List α} : (∃ x ∈ a :: l, P x) ↔ P a ∨ ∃ x ∈ l, P x := by
  simp only [List.mem_cons, or_and_right, exists_or, exists_eq_left]

theorem State.lt_latestSince (s : State) (l : List SlotIx) (n : Time) :
    n < s.latestSince l ↔ ∃ q ∈ l, n < (s.slot q).dirtySince.getD 0 := by
  induction l with
  | nil => simp [State.latestSince]
  | cons i rest ih =>
    have hmax : ∀ a b c : Nat, a < max b c ↔ a < b ∨ a < c := by omega
    rw [State.latestSince, exists_mem_cons_iff, ← ih]
    exact hmax n _ _

/-- In ORDER AGED, the DIRTY slots older than the youngest PINNED slot, in age order (R64). -/
def State.retried (s : State) : List SlotIx :=
  s.ageList.filter fun k => decide (s.params.aged = true ∧ ∃ q ∈ s.pinned,
    (s.slot k).dirtySince.getD 0 < (s.slot q).dirtySince.getD 0)

theorem State.retrySeals_eq (hage : s.holds s.ageList .dirty) : s.retrySeals = s.sealedTo s.retried := by
  unfold State.retried
  have hdirty : ∀ i ∈ s.ageList, (s.slot i).state = .dirty := fun i hi => (hage.2 i).1 hi
  by_cases ha : s.params.aged = true ∧ s.pinned ≠ []
  · rw [State.retrySeals, if_pos ha, State.foldl_sealOne _ _ (hage.1.filter _) hage.1 fun i hi => hdirty i (List.mem_filter.1 hi).1]
    refine congrArg s.sealedTo (List.filter_congr fun k _ => decide_eq_decide.2 ?_)
    rw [State.lt_latestSince]
    exact (and_iff_right ha.1).symm
  · have hnone : (s.ageList.filter fun k => decide (s.params.aged = true ∧ ∃ q ∈ s.pinned,
        (s.slot k).dirtySince.getD 0 < (s.slot q).dirtySince.getD 0)) = [] := by
      refine List.filter_eq_nil_iff.2 fun k _ hk => ha ?_
      obtain ⟨haged, q, hq, -⟩ := of_decide_eq_true hk
      exact ⟨haged, List.ne_nil_of_mem hq⟩
    rw [State.retrySeals, if_neg ha, hnone, State.sealedTo_nil]

/-- The listed PINNED slots in the commit queue as SEALED (R64). -/
def State.requeued (s : State) (l : List SlotIx) : State :=
  { s with pinned := s.pinned.filter fun k => k ∉ l, queue := s.queue ++ l
           slots := Vector.ofFn fun k => if k ∈ l then { s.slot k with state := .sealed, settle := none, age := none }
             else s.slot k }

theorem State.slot_requeued (s : State) (l : List SlotIx) (k : SlotIx) : (s.requeued l).slot k =
    if k ∈ l then { s.slot k with state := .sealed, settle := none, age := none } else s.slot k :=
  Vector.getElem_ofFn _

theorem State.requeued_nil (s : State) : s.requeued [] = s := by
  have hslots : (s.requeued []).slots = s.slots := slots_ext fun k => (State.slot_requeued s [] k).trans (if_neg List.not_mem_nil)
  have hpinned : (s.requeued []).pinned = s.pinned := List.filter_eq_self.2 fun k _ => by simp
  have hqueue : (s.requeued []).queue = s.queue := List.append_nil _
  calc s.requeued [] = { s with slots := (s.requeued []).slots, pinned := (s.requeued []).pinned, queue := (s.requeued []).queue } := rfl
    _ = s := by rw [hslots, hpinned, hqueue]

theorem State.moveTo_sealed_of_pinned (h : (s.slot i).state = .pinned) : s.moveTo i .sealed =
    { s with pinned := s.pinned.erase i, queue := s.queue ++ [i]
             slots := s.slots.set i.val { s.slot i with state := .sealed, settle := none, age := none } } := by
  unfold State.moveTo State.leave
  rw [h]
  rfl

theorem State.foldl_requeue {l : List SlotIx} (hl : l.Nodup) (hn : s.pinned.Nodup) (hp : ∀ k ∈ l, (s.slot k).state = .pinned) :
    l.foldl (fun m i => m.moveTo i .sealed) s = s.requeued l := by
  induction l generalizing s with
  | nil => exact s.requeued_nil.symm
  | cons i rest ih =>
    obtain ⟨hi, hrest⟩ := List.nodup_cons.1 hl
    have hmove := State.moveTo_sealed_of_pinned (hp i List.mem_cons_self)
    have hne : ∀ k, k ≠ i → (s.moveTo i .sealed).slot k = s.slot k := fun k hk => by
      rw [hmove]
      exact State.slot_setSlot_ne s _ hk.symm
    have hsame : (s.moveTo i .sealed).slot i = { s.slot i with state := .sealed, settle := none, age := none } := by
      rw [hmove]
      exact State.slot_setSlot_same s i _
    have hpinned : (s.moveTo i .sealed).pinned = s.pinned.erase i := by rw [hmove]
    rw [List.foldl_cons, ih hrest (hpinned ▸ hn.erase _) fun k hk => by
      rw [hne k fun e => hi (e ▸ hk)]
      exact hp k (List.mem_cons_of_mem _ hk)]
    have hslots : ((s.moveTo i .sealed).requeued rest).slots = (s.requeued (i :: rest)).slots := slots_ext fun k => by
      refine (State.slot_requeued _ rest k).trans (Eq.trans ?_ (State.slot_requeued s (i :: rest) k).symm)
      by_cases hk : k = i
      · subst hk
        rw [if_neg hi, if_pos List.mem_cons_self, hsame]
      · rw [hne k hk]
        simp [hk]
    have hlist : ((s.moveTo i .sealed).pinned.filter fun k => k ∉ rest) = s.pinned.filter fun k => k ∉ i :: rest := by
      rw [hpinned, hn.erase_eq_filter, List.filter_filter]
      exact List.filter_congr fun k _ => by by_cases h : k = i <;> simp [h]
    calc (s.moveTo i .sealed).requeued rest
        = { s with slots := ((s.moveTo i .sealed).requeued rest).slots
                   pinned := (s.moveTo i .sealed).pinned.filter fun k => k ∉ rest, queue := s.queue ++ [i] ++ rest } := by
          rw [hmove]
          rfl
      _ = s.requeued (i :: rest) := by
          rw [hslots, hlist, List.append_assoc]
          rfl

theorem State.requeued_all {l : List SlotIx} (hl : s.pinned = l) : s.requeued l =
    { s with pinned := [], queue := s.queue ++ l
             slots := Vector.ofFn fun k => if k ∈ l then { s.slot k with state := .sealed, settle := none, age := none }
               else s.slot k } := by
  have hempty : (s.pinned.filter fun k => k ∉ l) = [] := List.filter_eq_nil_iff.2 fun k hk => by
    simpa using hl ▸ hk
  unfold State.requeued
  rw [hempty]

/-- A seal of DIRTY slots leaves the PINNED ones. -/
theorem State.sealedTo_pinned (hcoll : s.collectionsOk) {older : List SlotIx} (hsub : ∀ k ∈ older, k ∈ s.ageList) {k : SlotIx}
    (hk : k ∈ s.pinned) : ((s.sealedTo older).slot k).state = .pinned := by
  have hstate := (hcoll.2.2.2.2.2 k).1 hk
  have hnot : k ∉ older := fun h => by
    have := (hcoll.2.2.1.2 k).1 (hsub k h)
    rw [hstate] at this
    cases this
  rw [State.slot_sealedTo, if_neg hnot]
  exact hstate

theorem State.pinned_sealedTo (s : State) (l : List SlotIx) : (s.sealedTo l).pinned = s.pinned := by unfold State.sealedTo; rfl

/-- RETRY: the seals of ORDER AGED, and then every PINNED slot in the queue. -/
theorem State.doRetry_eq (hcoll : s.collectionsOk) :
    s.doRetry = State.responding ((s.sealedTo s.retried).requeued s.pinned) [0x00, 0x0C, BitVec.ofNat 8 s.pinned.length] := by
  have hnodup : s.pinned.Nodup := hcoll.2.2.2.2.1
  have hsub : ∀ k ∈ s.retried, k ∈ s.ageList := fun k hk => (List.mem_filter.1 hk).1
  have hpinned : ∀ k ∈ s.pinned, ((s.sealedTo s.retried).slot k).state = .pinned := fun k hk => State.sealedTo_pinned hcoll hsub hk
  have hkept : (s.sealedTo s.retried).pinned.Nodup := by rwa [State.pinned_sealedTo]
  have hfold := State.foldl_requeue hnodup hkept hpinned
  unfold State.doRetry
  rw [State.retrySeals_eq hcoll.2.2.1, hfold, State.respond_eq]
  exact congrArg (State.responding _) rfl

/-! ### The slots of a DISCARD -/

theorem State.freeSlot_of_pinned (h : (s.slot i).state = .pinned) : s.freeSlot i =
    { s with pinned := s.pinned.erase i, freeList := insertAscending i s.freeList
             slots := s.slots.set i.val (s.slot i).emptied } := by
  have hmove : s.moveTo i .free = State.setSlot
      { s with pinned := s.pinned.erase i, freeList := insertAscending i s.freeList } i ((s.slot i).become .free) := by
    unfold State.moveTo State.leave
    rw [h]
    rfl
  unfold State.freeSlot
  rw [hmove, State.modSlot_eq, State.slot_setSlot_same, State.setSlot_setSlot]
  rfl

/-- The fault log after a slot's DISCARDED record (R160). -/
def State.discardLog (s : State) (i : SlotIx) : FaultLog :=
  s.log.append .discarded (s.slot i).page (some (s.translate ((s.slot i).page.getD 0))) (some (card (s.slot i).dirty))
    (BitVec.ofNat 8 i.val)

theorem State.discardSlot_eq (h : (s.slot i).state = .pinned) : s.discardSlot i =
    { s with log := s.discardLog i, pinned := s.pinned.erase i, freeList := insertAscending i s.freeList
             requests := s.requests.erase (.fill i), slots := s.slots.set i.val (s.slot i).emptied
             reading := if s.owner = .fill i then s.reading.map fun g => { g with dropped := true } else s.reading } := by
  let d : State := { s with log := s.discardLog i, reading := if s.owner = .fill i then s.reading.map fun g => { g with dropped := true } else s.reading }
  have hdrop : s.discardSlot i = (d.withdrawFill i).freeSlot i := by
    unfold State.discardSlot
    refine congrArg (fun m : State => (m.withdrawFill i).freeSlot i) ?_
    by_cases ho : s.owner = .fill i
    · refine (if_pos ho).trans ?_
      rw [State.dropReading_eq]
      exact congrArg (fun x => { s with log := s.discardLog i, reading := x }) (if_pos ho).symm
    · refine (if_neg ho).trans ?_
      exact congrArg (fun x => { s with log := s.discardLog i, reading := x }) (if_neg ho).symm
  have hw : (d.withdrawFill i).slot i = { s.slot i with fillPending := none } :=
    State.slot_modSlot_same d i fun x => { x with fillPending := none }
  rw [hdrop, State.freeSlot_of_pinned (by rw [hw]; exact h), hw]
  simp [d, State.withdrawFill, State.modSlot, State.setSlot, Vector.set_set, Slot.emptied]

/-- The log of a list of discarded slots depends on no more than the log at its start. -/
theorem State.foldl_append_log (l : List SlotIx) (f : SlotIx → Option Nat × Option Nat × Option Nat) {m v : State}
    (h : m.log = v.log) :
    (l.foldl (fun m k => m.append .discarded (f k).1 (f k).2.1 (f k).2.2 (BitVec.ofNat 8 k.val)) m).log =
      (l.foldl (fun m k => m.append .discarded (f k).1 (f k).2.1 (f k).2.2 (BitVec.ofNat 8 k.val)) v).log := by
  induction l generalizing m v with
  | nil => exact h
  | cons k rest ih => exact ih (by simp [State.append, h])

theorem State.slot_discarded (s : State) (l : List SlotIx) (k : SlotIx) :
    (s.discarded l).slot k = if k ∈ l then (s.slot k).emptied else s.slot k :=
  Vector.getElem_ofFn _

theorem State.discarded_nil (hcoll : s.collectionsOk) (hasc : s.freeAscending) : s.discarded [] = s := by
  have hslots : (s.discarded []).slots = s.slots := slots_ext fun k => (State.slot_discarded s [] k).trans (if_neg List.not_mem_nil)
  have hpinned : (s.pinned.filter fun k => k ∉ ([] : List SlotIx)) = s.pinned := List.filter_eq_self.2 fun k _ => by simp
  have hfree : ((List.finRange 32).filter fun k => decide ((s.slot k).state = .free ∨ k ∈ ([] : List SlotIx))) = s.freeList := by
    rw [State.freeList_eq hcoll hasc]
    exact List.filter_congr fun k _ => by simp
  have hreq : (s.requests.filter fun r => decide (∀ k ∈ ([] : List SlotIx), r ≠ .fill k)) = s.requests :=
    List.filter_eq_self.2 fun k _ => by simp
  have hread : (if ∃ k ∈ ([] : List SlotIx), s.owner = .fill k then s.reading.map fun g => { g with dropped := true } else s.reading) =
      s.reading := if_neg (by simp)
  calc s.discarded [] = { s with slots := (s.discarded []).slots, pinned := _, freeList := _, requests := _, reading := _ } := rfl
    _ = s := by rw [hslots, hpinned, hfree, hreq, hread]

theorem State.discardSlot_collectionsOk (h : s.collectionsOk) (hi : (s.slot i).state = .pinned) : (s.discardSlot i).collectionsOk := by
  rw [State.discardSlot_eq hi]
  refine State.collectionsOk_congr (State.freeSlot_collectionsOk h i) (fun k => ?_) fun c => ?_
  · rw [State.freeSlot_of_pinned hi]
    rfl
  · rw [State.freeSlot_of_pinned hi]
    cases c <;> rfl

theorem State.discardSlot_ascending (h : s.collectionsOk) (hasc : s.freeAscending) (hi : (s.slot i).state = .pinned) :
    (s.discardSlot i).freeAscending := by
  rw [State.discardSlot_eq hi]
  refine insertAscending_ascending (fun hk => ?_) hasc
  have := (h.1.2 i).1 hk
  rw [hi] at this
  cases this

/-- One slot discarded and then a list of slots is the longer list discarded. -/
theorem State.discarded_cons {rest : List SlotIx} (hi : i ∉ rest) (hpin : (s.slot i).state = .pinned) (hn : s.pinned.Nodup)
    (hreq : s.requests.Nodup) : (s.discardSlot i).discarded rest = s.discarded (i :: rest) := by
  have heq := State.discardSlot_eq hpin
  have hne : ∀ k, k ≠ i → (s.discardSlot i).slot k = s.slot k := fun k hk => by
    rw [heq]
    exact State.slot_setSlot_ne s _ hk.symm
  have hsame : (s.discardSlot i).slot i = (s.slot i).emptied := by
    rw [heq]
    exact State.slot_setSlot_same s i _
  have hslots : ((s.discardSlot i).discarded rest).slots = (s.discarded (i :: rest)).slots := slots_ext fun k => by
    refine (State.slot_discarded _ rest k).trans (Eq.trans ?_ (State.slot_discarded s (i :: rest) k).symm)
    by_cases hk : k = i
    · subst hk
      rw [if_neg hi, if_pos List.mem_cons_self, hsame]
    · rw [hne k hk]
      simp [hk]
  have hpinned : ((s.pinned.erase i).filter fun k => k ∉ rest) = s.pinned.filter fun k => k ∉ i :: rest := by
    rw [hn.erase_eq_filter, List.filter_filter]
    exact List.filter_congr fun k _ => by by_cases h : k = i <;> simp [h]
  have hfree : ((List.finRange 32).filter fun k => decide (((s.discardSlot i).slot k).state = .free ∨ k ∈ rest)) =
      (List.finRange 32).filter fun k => decide ((s.slot k).state = .free ∨ k ∈ i :: rest) := by
    refine List.filter_congr fun k _ => decide_eq_decide.2 ?_
    by_cases hk : k = i
    · subst hk
      rw [hsame]
      simp [Slot.emptied]
    · rw [hne k hk]
      simp [hk]
  have hrequests : ((s.requests.erase (.fill i)).filter fun r => decide (∀ k ∈ rest, r ≠ .fill k)) =
      s.requests.filter fun r => decide (∀ k ∈ i :: rest, r ≠ .fill k) := by
    rw [hreq.erase_eq_filter, List.filter_filter]
    exact List.filter_congr fun r _ => by by_cases h : r = .fill i <;> simp [h]
  have hreading : (if ∃ k ∈ rest, s.owner = .fill k then (if s.owner = .fill i then s.reading.map fun g => { g with dropped := true } else s.reading).map fun g => { g with dropped := true }
        else if s.owner = .fill i then s.reading.map fun g => { g with dropped := true } else s.reading) =
      if ∃ k ∈ i :: rest, s.owner = .fill k then s.reading.map fun g => { g with dropped := true } else s.reading := by
    by_cases hr : ∃ k ∈ rest, s.owner = .fill k <;> by_cases ho : s.owner = .fill i <;> simp_all
  have hlog : (rest.foldl (fun m k => m.append .discarded ((s.discardSlot i).slot k).page
        (some ((s.discardSlot i).translate (((s.discardSlot i).slot k).page.getD 0)))
        (some (card ((s.discardSlot i).slot k).dirty)) (BitVec.ofNat 8 k.val)) (s.discardSlot i)).log =
      ((i :: rest).foldl (fun m k => m.append .discarded (s.slot k).page (some (s.translate ((s.slot k).page.getD 0)))
        (some (card (s.slot k).dirty)) (BitVec.ofNat 8 k.val)) s).log := by
    have htranslate : ∀ x, (s.discardSlot i).translate x = s.translate x := fun x => by
      rw [heq]
      rfl
    have hfun : rest.foldl (fun m k => m.append .discarded ((s.discardSlot i).slot k).page
        (some ((s.discardSlot i).translate (((s.discardSlot i).slot k).page.getD 0)))
        (some (card ((s.discardSlot i).slot k).dirty)) (BitVec.ofNat 8 k.val)) (s.discardSlot i) =
        rest.foldl (fun m k => m.append .discarded (s.slot k).page (some (s.translate ((s.slot k).page.getD 0)))
          (some (card (s.slot k).dirty)) (BitVec.ofNat 8 k.val)) (s.discardSlot i) :=
      List.foldl_rel (r := Eq) rfl fun k hk m m' hm => by rw [hm, hne k fun e => hi (e ▸ hk), htranslate]
    rw [hfun, List.foldl_cons]
    exact State.foldl_append_log rest (fun k => ((s.slot k).page, some (s.translate ((s.slot k).page.getD 0)), some (card (s.slot k).dirty)))
      (by rw [heq]; rfl)
  calc (s.discardSlot i).discarded rest
      = { s with
            slots := ((s.discardSlot i).discarded rest).slots, pinned := (s.pinned.erase i).filter fun k => k ∉ rest
            freeList := (List.finRange 32).filter fun k => decide (((s.discardSlot i).slot k).state = .free ∨ k ∈ rest)
            requests := (s.requests.erase (.fill i)).filter fun r => decide (∀ k ∈ rest, r ≠ .fill k)
            reading := if ∃ k ∈ rest, s.owner = .fill k then (if s.owner = .fill i then s.reading.map fun g => { g with dropped := true } else s.reading).map fun g => { g with dropped := true }
              else if s.owner = .fill i then s.reading.map fun g => { g with dropped := true } else s.reading
            log := (rest.foldl (fun m k => m.append .discarded ((s.discardSlot i).slot k).page
              (some ((s.discardSlot i).translate (((s.discardSlot i).slot k).page.getD 0)))
              (some (card ((s.discardSlot i).slot k).dirty)) (BitVec.ofNat 8 k.val)) (s.discardSlot i)).log } := by
        unfold State.discarded
        rw [heq]
    _ = s.discarded (i :: rest) := by
        rw [hslots, hpinned, hfree, hrequests, hreading, hlog]
        rfl

/-- PINNED slots discarded one after the other, and what stands of the collections. -/
theorem State.foldl_discardSlot {l : List SlotIx} (hcoll : s.collectionsOk) (hasc : s.freeAscending) (hreq : s.requests.Nodup)
    (hl : l.Nodup) (hp : ∀ k ∈ l, (s.slot k).state = .pinned) :
    l.foldl State.discardSlot s = s.discarded l ∧ (s.discarded l).collectionsOk := by
  induction l generalizing s with
  | nil =>
    rw [State.discarded_nil hcoll hasc]
    exact ⟨rfl, hcoll⟩
  | cons i rest ih =>
    obtain ⟨hi, hrest⟩ := List.nodup_cons.1 hl
    have hpin := hp i List.mem_cons_self
    have heq := State.discardSlot_eq hpin
    have hstart := ih (State.discardSlot_collectionsOk hcoll hpin) (State.discardSlot_ascending hcoll hasc hpin)
      (by rw [heq]; exact hreq.erase _) hrest fun k hk => by
        rw [heq]
        exact (congrArg Slot.state (State.slot_setSlot_ne s _ (ne_of_mem_of_not_mem hk hi).symm)).trans (hp k (List.mem_cons_of_mem _ hk))
    rw [State.discarded_cons hi hpin hcoll.2.2.2.2.1 hreq] at hstart
    exact hstart

end Sys2Proof.Machine

/-! PROOF. DISCARD (R17, R22, R44, R180): the slots freed, then the ports that waited on them served anew in arrival order. -/

namespace Sys2Proof.Machine

variable {s r u : State} {i j j2 : SlotIx} {p q : PortId} {acc acc2 : Access} {reads : List PortId} {l : List SlotIx}

theorem State.mem_waitersOf (s : State) (l : List SlotIx) (p : PortId) :
    p ∈ s.waitersOf l ↔ ∃ k ∈ l, (s.slot k).wait p ≠ none := by
  have hp : p ∈ [PortId.a, PortId.b] := by cases p <;> simp
  unfold State.waitersOf
  rw [List.mem_filter, List.any_eq_true]
  exact (and_iff_right hp).trans (exists_congr fun k => and_congr_right fun _ => by
    rw [State.waitsOn, Option.isSome_iff_ne_none])

/-- The requests made in an event stand as they are when they are in the order of R92. -/
theorem State.orderRequests_suffix {old new : List Request} (h : s.requests = old ++ new)
    (hsorted : new.foldr insertRequest [] = new) : s.orderRequests old.length = s := by
  unfold State.orderRequests
  rw [h, List.take_left, List.drop_left, hsorted, ← h]

/-! ### A read that starts again, and what it leaves -/

theorem State.rereads_requests (s : State) (p : PortId) (acc : Access) (j : SlotIx) : (s.rereads p acc j).requests = s.requests ++ [.fill j] := by
  cases p <;> rfl

theorem State.rereads_freeList (s : State) (p : PortId) (acc : Access) (j : SlotIx) : (s.rereads p acc j).freeList = s.freeList.erase j := by
  cases p <;> rfl

theorem State.rereads_store (s : State) (p : PortId) (acc : Access) (j : SlotIx) : (s.rereads p acc j).store = s.store := by
  cases p <;> rfl

theorem State.rereads_port (hpq : p ≠ q) : (s.rereads p acc j).port q = s.port q := by
  cases p <;> cases q
  · exact absurd rfl hpq
  · rfl
  · rfl
  · exact absurd rfl hpq

theorem State.rereads_slot (s : State) (p : PortId) (acc : Access) (j : SlotIx) : (s.rereads p acc j).slot j = Slot.setWait
    { (s.slot j).emptied with state := .clean, page := some acc.page, fillPending := some fullSet } p (some acc.offsets) := by
  cases p <;> exact State.slot_setSlot_same s j _

theorem State.rereads_slot_ne (hij : j ≠ i) : (s.rereads p acc j).slot i = s.slot i := by
  cases p <;> exact State.slot_setSlot_ne s _ hij

/-- The slot taken carries the page and nothing else is changed in what the slots carry. -/
theorem State.rereads_carries (s : State) (p : PortId) (acc : Access) (j : SlotIx) (page : Nat) :
    (s.rereads p acc j).carries i page ↔ if i = j then acc.page = page else s.carries i page := by
  by_cases hij : i = j
  · subst hij
    unfold State.carries
    rw [if_pos rfl, State.rereads_slot, Slot.setWait_page, Slot.setWait_state]
    simp
  · unfold State.carries
    rw [if_neg hij, State.rereads_slot_ne (Ne.symm hij)]

theorem State.rereads_collectionsOk (hpage : s.uncarried acc.page) (hreadable : s.readable) (hcoll : s.collectionsOk) (htakes : s.takes j)
    (hstall : (s.port p).stall ≠ none) : (s.rereads p acc j).collectionsOk := by
  rw [← State.readPath_rereads hpage hreadable hcoll htakes hstall]
  exact (State.readPath_edits (k := ⟨none, false, false, false, false, false, []⟩) (o := s) p acc (.inl rfl)).keeps
    (fun _ _ he => he.collectionsOk) hcoll

/-- A read that waits on a slot whose fill another read has just requested joins it. -/
theorem State.rereads_joined (hpq : p ≠ q) (huncarried : s.uncarried acc.page) (hsame : acc2.page = acc.page) (hreadable : s.readable)
    (hoff : acc2.offsets ≠ 0) (hstall : (s.port q).stall ≠ none) :
    (s.rereads p acc j).readPath q acc2 = State.setPort
      ((s.rereads p acc j).setSlot j (((s.rereads p acc j).slot j).setWait q (some acc2.offsets))) q
      { s.port q with state := .waitFill, waited := some j } := by
  have hport := State.rereads_port (s := s) (acc := acc) (j := j) hpq
  have hcarrier : (s.rereads p acc j).soleCarrier j acc2.page := by
    rw [hsame]
    refine ⟨(State.rereads_carries s p acc j _).2 (by rw [if_pos rfl]), fun i hi => Classical.byContradiction fun hij => huncarried i ?_⟩
    rwa [State.rereads_carries, if_neg hij] at hi
  have hslot := State.rereads_slot s p acc j
  have hfill : ((s.rereads p acc j).slot j).fillPending = some fullSet := by rw [hslot, Slot.setWait_fillPending]
  have hsub : ¬subset acc2.offsets ((s.rereads p acc j).slot j).present = true := fun h => by
    rw [hslot, Slot.setWait_present] at h
    exact hoff (subset_empty h)
  have hread : (s.rereads p acc j).readable := by
    rw [State.readable, State.rereads_store]
    exact hreadable
  have hstall' : ((s.rereads p acc j).port q).stall ≠ none := by rwa [hport]
  rw [State.readPath_joins hcarrier hsub hread hstall', State.waitOnSlot_again hstall', hport]
  generalize s.rereads p acc j = m at hfill
  have hkept : { m.slot j with fillPending := some ((m.slot j).fillPending.getD (~~~(m.slot j).present)) } = m.slot j := by
    rw [hfill, Option.getD_some, ← hfill]
  rw [hkept, if_neg (by rw [hfill]; nofun)]
  rfl

/-! ### The ports served anew -/

theorem State.serveAnew_idle (h : p ∉ reads) (hs : (s.port p).state ≠ .waitSlot) : State.serveAnew reads s p = s :=
  (State.serveAnew_write h).trans (State.serveWrite_other hs)

/-- The port's answer where the array cannot be read for the host: a read that starts again is refused (R34). -/
def State.readRefused (s : State) (reads : List PortId) (p : PortId) : HostPort :=
  match (s.port p).access with
  | some x => if p ∈ reads
      then (s.port p).refusing s.now x .arrayUnavailable (if s.store.state = .quiesced then .quiesced else .arrayTimeout)
      else s.port p
  | none => s.port p

theorem State.serveAnew_unreadable (hreadable : ¬s.readable) (hwrite : (s.port p).state ≠ .waitSlot)
    (hpage : ∀ x ∈ (s.port p).access, p ∈ reads → s.uncarried x.page) : State.serveAnew reads s p = s.setPort p (s.readRefused reads p) := by
  unfold State.readRefused
  by_cases hp : p ∈ reads
  · cases hacc : (s.port p).access with
    | none =>
      have hsame : State.serveAnew reads s p = s := by
        unfold State.serveAnew
        rw [hacc]
        exact if_pos (List.contains_iff_mem.2 hp)
      rw [hsame]
      exact (State.setPort_port s p).symm
    | some x =>
      rw [State.serveAnew_read hp hacc, State.readPath_uncarried (hpage x hacc hp)]
      unfold State.readMiss
      rw [State.arrayUnavailable_some hreadable]
      simp only [if_pos hp, decide_eq_true_eq]
      exact State.answerError_refusing s _ hacc
  · have hsame : State.readRefused s reads p = s.port p := by
      unfold State.readRefused
      split
      · exact if_neg hp
      · rfl
    rw [State.serveAnew_idle hp hwrite]
    refine ((State.setPort_port s p).symm.trans (congrArg (s.setPort p) hsame.symm)).trans ?_
    rfl

theorem State.serveRestarted_unreadable (hreadable : ¬s.readable) (hwrite : s.noWriteWaits)
    (ha : ∀ x ∈ s.portA.access, .a ∈ reads → s.uncarried x.page) (hb : ∀ x ∈ s.portB.access, .b ∈ reads → s.uncarried x.page) :
    s.serveRestarted reads = { s with portA := s.readRefused reads .a, portB := s.readRefused reads .b } := by
  have hboth : ∀ l, l = [.a, .b] ∨ l = [.b, .a] → l.foldl (State.serveAnew reads) s =
      { s with portA := s.readRefused reads .a, portB := s.readRefused reads .b } := fun l hl => by
    rcases hl with rfl | rfl
    · rw [List.foldl_cons, List.foldl_cons, State.serveAnew_unreadable (p := .a) hreadable hwrite.1 ha]
      exact State.serveAnew_unreadable (s := s.setPort .a _) (p := .b) hreadable hwrite.2 hb
    · rw [List.foldl_cons, List.foldl_cons, State.serveAnew_unreadable (p := .b) hreadable hwrite.2 hb]
      exact State.serveAnew_unreadable (s := s.setPort .b _) (p := .a) hreadable hwrite.1 ha
  refine (State.serveRestarted_eq s reads).trans (hboth _ ?_)
  unfold State.portsByArrival
  split
  · split
    · exact .inr rfl
    · exact .inl rfl
  · exact .inl rfl

/-- With no slot allocatable, a read that starts again makes its bypass read and keeps its stall deadline (R32, R44). -/
theorem State.readPath_bypasses (hpage : s.uncarried acc.page) (hreadable : s.readable) (hnone : s.noneAllocatable)
    (hstall : (s.port p).stall ≠ none) : s.readPath p acc = State.setPort { s with requests := s.requests ++ [.bypass p] } p
      { s.port p with state := .waitBypass, waited := none } := by
  rw [State.readPath_uncarried hpage]
  unfold State.readMiss
  rw [State.arrayUnavailable_none hreadable, (State.allocatable_none_iff s).2 hnone]
  obtain ⟨d, hd⟩ := Option.ne_none_iff_exists'.1 hstall
  cases p <;> simp_all [State.enterWait, State.modPort, State.setPort, State.port]

/-! ### The event of a DISCARD -/

/-- The slots a DISCARD frees: the one its argument names, or every PINNED slot. -/
def State.discards (s : State) (l : List SlotIx) (a : Byte) : Prop :=
  (∃ i : SlotIx, (s.slot i).state = .pinned ∧ l = [i] ∧ a = BitVec.ofNat 8 i.val) ∨ l = s.pinned ∧ a = 0xFF

theorem byte_of_slot (i : SlotIx) : (BitVec.ofNat 8 i.val : Byte).toNat = i.val ∧ BitVec.ofNat 8 i.val ≠ (0xFF : Byte) := by
  revert i
  decide

theorem State.discards.slots {a : Byte} (h : s.discards l a) : s.discardSlots [a] = l := by
  unfold State.discardSlots argument
  rcases h with ⟨i, -, rfl, rfl⟩ | ⟨rfl, rfl⟩
  · rw [List.headD_cons, if_neg (byte_of_slot i).2]
    refine congrArg (fun k => [k]) (Fin.ext ?_)
    show (BitVec.ofNat 8 i.val : Byte).toNat % 32 = i.val
    rw [(byte_of_slot i).1]
    exact Nat.mod_eq_of_lt i.isLt
  · exact if_pos rfl

theorem State.discards.passes {a : Byte} (h : s.discards l a) : s.refusal 13 [a] false = none := by
  refine State.refusal_none_of s _ (by decide) rfl (by simp [State.refusesLong]) ?_ ?_ (by simp)
  · rcases h with ⟨i, -, rfl, rfl⟩ | ⟨rfl, rfl⟩
    · simp [argumentRefused, (byte_of_slot i).1, Nat.not_le.2 i.isLt]
    · simp [argumentRefused]
  · rcases h with ⟨i, hi, rfl, rfl⟩ | ⟨rfl, rfl⟩
    · have hix : (Fin.ofNat 32 i.val : SlotIx) = i := Fin.ext (Nat.mod_eq_of_lt i.isLt)
      simp [State.stateRefuses, (byte_of_slot i).1, hix, hi]
    · simp [State.stateRefuses]

theorem State.discards.pinned {a : Byte} (h : s.discards l a) (hcoll : s.collectionsOk) :
    l.Nodup ∧ ∀ k ∈ l, (s.slot k).state = .pinned := by
  rcases h with ⟨i, hi, rfl, rfl⟩ | ⟨rfl, rfl⟩
  · exact ⟨List.pairwise_singleton _ i, fun k hk => List.mem_singleton.1 hk ▸ hi⟩
  · exact ⟨hcoll.2.2.2.2.1, fun k hk => (hcoll.2.2.2.2.2 k).1 hk⟩

/-- DISCARD frees the slots, and then the ports that waited on them are served anew. -/
theorem exec_discard (t : Time) {a : Byte} (hreset : s.resetN = true) (hcoll : s.collectionsOk) (hasc : s.freeAscending)
    (hreq : s.requests.Nodup) (hl : s.discards l a) {r : State} (hr : (s.tick t).discarded l = r) {new : List Request}
    (hu : r.serveRestarted (s.waitersOf l) = u) (hnew : u.requests = r.requests ++ new) (hsorted : new.foldr insertRequest [] = new) :
    exec (.discard t [a]) s = .next (State.finish (u.responding [0x00, 0x0D, BitVec.ofNat 8 l.length])) := by
  obtain ⟨hnodup, hpinned⟩ := hl.pinned hcoll
  refine (exec_commandRow_passes t (code := 13) (args := [a]) hreset (by simp) hl.passes).trans ?_
  refine congrArg (fun v => Host.Outcome.next (State.finish v)) ?_
  show (s.tick t).doDiscard [a] = _
  have hslots : (s.tick t).discardSlots [a] = l := hl.slots
  have hwaiters : (s.tick t).waitersOf l = s.waitersOf l := rfl
  have hfold := (State.foldl_discardSlot (s := s.tick t) hcoll hasc hreq hnodup hpinned).1
  unfold State.doDiscard
  dsimp only
  rw [hslots, hfold, hwaiters, hr, hu, State.orderRequests_suffix hnew hsorted, State.respond_eq]
  rfl

/-- What the slots freed leave for the service of the ports. -/
structure State.Freed (s : State) (t : Time) (r : State) : Prop where
  port : ∀ p, r.port p = s.port p
  store : r.store = s.store
  now : r.now = max s.now t
  coll : r.collectionsOk
  asc : r.freeList.Pairwise (· < ·)

theorem State.discards.freed {a : Byte} (h : s.discards l a) (t : Time) (hcoll : s.collectionsOk) (hasc : s.freeAscending)
    (hreq : s.requests.Nodup) : s.Freed t ((s.tick t).discarded l) := by
  obtain ⟨hnodup, hpinned⟩ := h.pinned hcoll
  have hok := (State.foldl_discardSlot (s := s.tick t) hcoll hasc hreq hnodup hpinned).2
  refine { port := fun p => ?_, store := ?_, now := ?_, coll := hok, asc := ?_ }
  · unfold State.discarded
    cases p <;> rfl
  · unfold State.discarded
    rfl
  · unfold State.discarded
    rfl
  · unfold State.discarded
    dsimp only
    exact finRange_ascending.filter _

end Sys2Proof.Machine

/-! PROOF. RETRY and DISCARD as the statement gives them (R22, R44, R64, R160, R180). -/

namespace Sys2Proof.Machine

variable {s r u : State} {i j j2 : SlotIx} {p q : PortId} {acc acc2 : Access} {reads : List PortId} {l : List SlotIx} {t : Time}

theorem exec_retry (t : Time) (hreset : s.resetN = true) (hcoll : s.collectionsOk) (hworks : s.works) :
    exec (.retry t []) s = .next (State.finish (State.responding (((s.tick t).sealedTo s.retried).requeued s.pinned)
      [0x00, 0x0C, BitVec.ofNat 8 s.pinned.length])) := by
  have hpasses : s.refusal 12 [] false = none :=
    State.refusal_none_of s _ (by decide) rfl (by simp [State.refusesLong]) (by simp [argumentRefused])
      (by simp [State.stateRefuses, hworks]) (by simp)
  refine (exec_commandRow_passes t (code := 12) (args := []) hreset (by simp) hpasses).trans ?_
  exact congrArg (fun v => Host.Outcome.next (State.finish v)) (State.doRetry_eq (s := s.tick t) hcoll)

theorem OnlyAccess.store (h : OnlyAccess s u) : u.store = s.store := by
  rw [h]

/-- Two slots at the head of an ascending list. -/
theorem take_two {m : List SlotIx} (hasc : m.Pairwise (· < ·)) (h : m.take 2 = [j, j2]) :
    m.head? = some j ∧ (m.erase j).head? = some j2 ∧ j < j2 := by
  match m, h with
  | a :: b :: rest, h =>
    obtain ⟨rfl, rfl⟩ : a = j ∧ b = j2 := by simpa using h
    exact ⟨rfl, by simp, (List.pairwise_cons.1 hasc).1 b List.mem_cons_self⟩

/-- Settles O60: RETRY by its seals, DISCARD by the slots freed and the ports that waited on them. -/
theorem retryAndDiscardOfPinnedSlots : Obligations.RetryAndDiscardOfPinnedSlots := by
  intro t s l a p q acc accQ j j2 hreset hcoll hasc _ hreq b since older o named r waits alone both refused first w answered
  have hwaits : ∀ x, x ∈ s.waitersOf l ↔ waits x := s.mem_waitersOf l
  have hfreed : named → s.Freed t r := fun h => State.discards.freed h t hcoll hasc hreq
  have hanswered : named → ∀ {m : State} (new : List Request), r.serveRestarted (s.waitersOf l) = m →
      m.requests = r.requests ++ new → new.foldr insertRequest [] = new → answered m := fun h m new hm hnew hsorted =>
    exec_discard t hreset hcoll hasc hreq h rfl hm hnew hsorted
  clear_value r
  -- A read served anew takes the head of the free list.
  have hread : named → alone → s.readable → r.freeList.head? = some j → State.serveAnew (s.waitersOf l) r p = r.rereads p acc j := by
    rintro h ⟨hp, -, hacc, hstall, -, hpage⟩ hreadable hj
    have hf := hfreed h
    rw [State.serveAnew_read ((hwaits p).2 hp) (by rw [hf.port]; exact hacc)]
    exact State.readPath_rereads hpage (by rw [State.readable, hf.store]; exact hreadable) hf.coll (.inl hj)
      (by rw [hf.port]; exact hstall)
  refine ⟨fun hworks => ?_, fun h ha hb => ?_, fun h hreadable hwrite hA hB => ?_, fun h hreadable halone hj => ⟨fun hq hs => ?_, ?_⟩,
    fun h hreadable halone hs hq hfirst hwq hpage => ?_, ?_⟩
  · refine (exec_retry t hreset hcoll hworks).trans ?_
    have hpinned : ((s.tick t).sealedTo s.retried).pinned = s.pinned := (State.pinned_sealedTo _ _).trans rfl
    rw [State.requeued_all hpinned]
    rfl
  · have hnone : s.waitersOf l = [] := List.eq_nil_iff_forall_not_mem.2 fun x hx => by
      cases x
      · exact ha ((hwaits _).1 hx)
      · exact hb ((hwaits _).1 hx)
    exact hanswered h [] (by rw [hnone]; rfl) (by rw [State.serveWaiting_requests, List.append_nil]) rfl
  · have hf := hfreed h
    have hpa : r.portA = s.portA := hf.port .a
    have hpb : r.portB = s.portB := hf.port .b
    have hrefused : ∀ x, r.readRefused (s.waitersOf l) x = refused x := fun x => by
      unfold State.readRefused
      rw [hf.port, hf.store, hf.now]
      show _ = (match (s.port x).access with | some y => _ | none => _)
      cases (s.port x).access with
      | none => rfl
      | some y => exact ite_of_iff (hwaits x) rfl rfl
    refine hanswered h [] ((State.serveRestarted_unreadable (by rw [State.readable, hf.store]; exact hreadable)
      (by rw [State.noWriteWaits, hpa, hpb]; exact hwrite) (fun x hx hin => hA x (hpa ▸ hx) ((hwaits _).1 hin))
      fun x hx hin => hB x (hpb ▸ hx) ((hwaits _).1 hin)).trans ?_) (List.append_nil _).symm rfl
    rw [hrefused, hrefused]
  · have hserved := hread h halone hreadable hj
    obtain ⟨-, hpq, -⟩ := halone
    have hidle : ∀ m : State, m.port q = r.port q → State.serveAnew (s.waitersOf l) m q = m := fun m hm =>
      State.serveAnew_idle (fun hin => hq ((hwaits q).1 hin)) (by rw [hm, (hfreed h).port]; exact hs)
    refine hanswered h [.fill j] ((State.serveRestarted_one hpq hidle ?_).trans hserved) (State.rereads_requests r p acc j) rfl
    rw [hserved]
    exact State.rereads_port hpq
  · intro hs hq hfirst hwq
    have hserved := hread h halone hreadable hj
    obtain ⟨-, hpq, hacc, -⟩ := halone
    have hf := hfreed h
    refine hanswered h [.fill j] ?_ (by rw [State.serveWrite_requests, State.rereads_requests]) rfl
    rw [State.serveRestarted_both _ hpq (by rw [hf.port]; exact hacc) (by rw [hf.port]; exact hq) hfirst, hserved,
      State.serveAnew_write fun hin => hwq ((hwaits q).1 hin)]
  · obtain ⟨hp, hpq, hacc, hstall, -⟩ := halone
    have hf := hfreed h
    have hlater : match (generalizing := false) q with | .a => accQ.order ≤ acc.order | .b => accQ.order < acc.order := by
      cases p <;> cases q
      · exact absurd rfl hpq
      · exact Nat.not_le.1 hfirst
      · exact Nat.not_lt.1 hfirst
      · exact absurd rfl hpq
    have hport : w.port p = s.port p := by
      rcases State.serveWrite_port r q p with hw | ⟨hqp, -⟩
      · exact hw.trans (hf.port p)
      · exact absurd hqp.symm hpq
    have hstore : w.store = s.store := (r.serveWrite_frame q).store.trans hf.store
    have hserved : r.serveRestarted (s.waitersOf l) = w.readPath p acc := by
      rw [State.serveRestarted_both _ hpq.symm (by rw [hf.port]; exact hq) (by rw [hf.port]; exact hacc) hlater,
        State.serveAnew_write fun hin => hwq ((hwaits q).1 hin)]
      exact State.serveAnew_read ((hwaits p).2 hp) (by rw [hport]; exact hacc)
    have hw : w.readable := by rw [State.readable, hstore]; exact hreadable
    have hwstall : (w.port p).stall ≠ none := by rw [hport]; exact hstall
    have hrequests : w.requests = r.requests := r.serveWrite_requests q
    have hwcoll : w.collectionsOk := (State.serveWrite_edits (k := ⟨none, false, false, false, false, false, []⟩) (o := r) r q).keeps
      (fun _ _ he => he.collectionsOk) hf.coll
    refine ⟨fun htakes => ?_, fun hnone => ?_⟩
    · exact hanswered h [.fill j] (hserved.trans (State.readPath_rereads hpage hw hwcoll htakes hwstall))
        (by rw [State.rereads_requests, hrequests]) rfl
    · refine hanswered h [.bypass p] (hserved.trans ((State.readPath_bypasses hpage hw hnone hwstall).trans ?_)) ?_ rfl
      · rw [hport]
      · cases p <;> exact congrArg (· ++ _) hrequests
  · rintro h hreadable ⟨halone, hwq, haccq, hstallq, hoffq, hpageq⟩ hfirst
    have hf := hfreed h
    have hservedp := hread h halone hreadable
    obtain ⟨hp, hpq, hacc, hstall, -, hpage⟩ := halone
    have hr : r.readable := by rw [State.readable, hf.store]; exact hreadable
    have hrstall : (r.port p).stall ≠ none := by rw [hf.port]; exact hstall
    have hrstallq : (r.port q).stall ≠ none := by rw [hf.port]; exact hstallq
    have hport : (r.rereads p acc j).port q = s.port q := (State.rereads_port hpq).trans (hf.port q)
    have hserved : r.freeList.head? = some j → r.serveRestarted (s.waitersOf l) = (r.rereads p acc j).readPath q accQ := fun hj => by
      rw [State.serveRestarted_both _ hpq (by rw [hf.port]; exact hacc) (by rw [hf.port]; exact haccq) hfirst, hservedp hj]
      exact State.serveAnew_read ((hwaits q).2 hwq) (by rw [hport]; exact haccq)
    refine ⟨fun hne htake => ?_, fun hsame hj => ?_⟩
    · obtain ⟨hj, hj2, hlt⟩ := take_two hf.asc htake
      have huncarried : (r.rereads p acc j).uncarried accQ.page := fun k hk => by
        rw [State.rereads_carries] at hk
        split at hk
        · exact hne hk.symm
        · exact hpageq k hk
      refine hanswered h [.fill j, .fill j2] ((hserved hj).trans (State.readPath_rereads huncarried
        (by rw [State.readable, State.rereads_store]; exact hr) (State.rereads_collectionsOk hpage hr hf.coll (.inl hj) hrstall)
        (.inl (by rw [State.rereads_freeList]; exact hj2)) (by rw [hport]; exact hstallq))) ?_ ?_
      · rw [State.rereads_requests, State.rereads_requests, List.append_assoc]
        rfl
      · exact if_pos hlt
    · refine hanswered h [.fill j] ((hserved hj).trans ((State.rereads_joined hpq hpage hsame hr hoffq hrstallq).trans ?_)) ?_ rfl
      · rw [hf.port]
      · cases q <;> exact State.rereads_requests r p acc j

end Sys2Proof.Machine

/-! PROOF. What stands of slots, waits and requests through the operations of an event (chapters 1 to 3 and 5.5). An event may leave
a port without a place in the course of its work, and may end a commit or a read; the context says which of these stand. -/

namespace Sys2Proof.Machine

variable {s u : State} {i j : SlotIx} {p q : PortId} {acc : Access} {x y : Slot}

/-! ### One slot -/

theorem inter_eq_left_iff {a b : OffsetSet} : a &&& b = a ↔ ∀ n, a.getLsbD n = true → b.getLsbD n = true := by
  constructor
  · intro h n ha
    have := congrArg (fun v : OffsetSet => v.getLsbD n) h
    simp only [BitVec.getLsbD_and, ha, Bool.true_and] at this
    exact this
  · intro h
    refine BitVec.eq_of_getLsbD_eq fun n _ => ?_
    rw [BitVec.getLsbD_and]
    cases ha : a.getLsbD n with
    | false => rfl
    | true => rw [h n ha, Bool.true_and]

theorem inter_eq_left_trans {a b c : OffsetSet} (h : a &&& b = a) (h' : b &&& c = b) : a &&& c = a :=
  inter_eq_left_iff.2 fun n ha => inter_eq_left_iff.1 h' n (inter_eq_left_iff.1 h n ha)

theorem inter_union_left (a b : OffsetSet) : a &&& (a ||| b) = a :=
  inter_eq_left_iff.2 fun n ha => by rw [BitVec.getLsbD_or, ha, Bool.true_or]

theorem union_ne_zero_left {a : OffsetSet} (h : a ≠ 0) (b : OffsetSet) : a ||| b ≠ 0 := fun hz => h (by
  have := inter_union_left a b
  rw [hz] at this
  simpa using this.symm)

theorem union_ne_zero_right {b : OffsetSet} (h : b ≠ 0) (a : OffsetSet) : a ||| b ≠ 0 := by
  rw [BitVec.or_comm]
  exact union_ne_zero_left h a

/-- What the manual says of one slot by itself (R2, R3, R23). -/
structure Slot.Ok (x : Slot) : Prop where
  sets : x.setsOk
  fields : x.fieldsOk
  idle : x.state = .free → x.idle

/-- The slot's waiting ports are as they were, and while it is COMMITTING so are its page and its bytes. -/
structure Slot.Keeps (x y : Slot) : Prop where
  wait : ∀ p, y.wait p = x.wait p := by intro p; cases p <;> rfl
  committing : y.state = .committing ↔ x.state = .committing := by rfl
  held : x.state = .committing → y.page = x.page ∧ x.present &&& y.present = x.present := by exact fun _ => ⟨rfl, BitVec.and_self⟩

theorem Slot.Ok.reset : Slot.reset.Ok :=
  ⟨⟨by decide, fun _ => rfl, fun _ => rfl, by decide⟩, ⟨by decide, by decide, fun _ => ⟨rfl, rfl⟩⟩, fun _ => ⟨rfl, rfl, rfl⟩⟩

theorem Slot.Ok.emptied (x : Slot) : x.emptied.Ok :=
  ⟨⟨by simp [Slot.emptied], fun _ => rfl, fun _ => rfl, by simp [Slot.emptied]⟩,
    ⟨by simp [Slot.emptied], by simp [Slot.emptied], fun _ => ⟨rfl, rfl⟩⟩, fun _ => ⟨rfl, rfl, rfl⟩⟩

/-- A slot that carries a page, in another state that its dirty set allows. -/
theorem Slot.Ok.become (h : x.Ok) {st : SlotState} (hx : x.state ≠ .free) (hst : st ≠ .free) (hclean : st = .clean → x.dirty = 0)
    (hdirty : st = .dirty ∨ st = .sealed ∨ st = .pinned → x.dirty ≠ 0) : (x.become st).Ok := by
  obtain ⟨⟨hsub, -, -, -⟩, ⟨hpage, hsince, -⟩, -⟩ := h
  have hsome : x.page ≠ none := fun hp => hx (hpage.1 hp)
  refine ⟨⟨?_, ?_, ?_, ?_⟩, ⟨?_, ?_, ?_⟩, ?_⟩
  · rw [Slot.become_dirty, Slot.become_present]
    exact hsub
  · rw [Slot.become_state]
    exact fun hf => absurd hf hst
  · rw [Slot.become_state, Slot.become_dirty]
    exact hclean
  · rw [Slot.become_state, Slot.become_dirty]
    exact hdirty
  · rw [Slot.become_page, Slot.become_state]
    exact iff_of_false hsome hst
  · rw [Slot.become_dirtySince, Slot.become_dirty]
    exact hsince
  · rw [Slot.become_state, Slot.become_settle, Slot.become_age]
    exact fun hne => ⟨if_neg hne, if_neg hne⟩
  · rw [Slot.become_state]
    exact fun hf => absurd hf hst

theorem Slot.Keeps.become {st : SlotState} (hx : x.state ≠ .committing) (hst : st ≠ .committing) : x.Keeps (x.become st) where
  wait := fun p => by cases p <;> simp [Slot.wait]
  committing := by rw [Slot.become_state]; exact iff_of_false hst hx
  held := fun h => absurd h hx

/-- A slot that is not COMMITTING, and stays so with its waiting ports. -/
theorem Slot.Keeps.of_not_committing (hwait : ∀ p, y.wait p = x.wait p) (hx : x.state ≠ .committing) (hy : y.state ≠ .committing) :
    x.Keeps y :=
  ⟨hwait, iff_of_false hy hx, fun h => absurd h hx⟩

/-! ### The context and what stands in it -/

/-- The COMMITTING slot, its page, and offsets that it holds. -/
structure Held where
  slot : SlotIx
  page : Nat
  bytes : OffsetSet

/-- What is under way: a granted read whose result is awaited, a commit, an engine request that needs a queued slot, and the ports
whose access is without a place for the moment. -/
structure Ctx where
  awaited : Option Request
  commit : Option Held
  queued : Prop
  loose : PortId → Prop

/-- The requests not yet granted and the granted one whose result is awaited. -/
def State.wanted (s : State) (a : Option Request) : List Request := a.toList ++ s.requests

/-- A port in its place (2.2, R2, R27, R31, R33). -/
structure State.PortOk (s : State) (w : List Request) (p : PortId) : Prop where
  fields : (s.port p).fieldsOk
  size : (s.port p).access.map Access.size ≠ some 3
  wait : s.waitOk p
  bypass : .bypass p ∈ w → (s.port p).state = .waitBypass

/-- A port whose access is without a place: no slot and no request knows it. -/
structure State.PortLoose (s : State) (w : List Request) (p : PortId) : Prop where
  access : ∃ acc, (s.port p).access = some acc ∧ acc.size ≠ 3
  wait : ∀ i : SlotIx, (s.slot i).wait p = none
  bypass : .bypass p ∉ w

/-- Slots, collections, waits and requests are sound but for what the context has under way. -/
structure Core (k : Ctx) (s : State) : Prop where
  coll : s.collectionsOk
  queued : k.queued → s.queue ≠ []
  slot : ∀ i : SlotIx, (s.slot i).Ok
  committing : ∀ i : SlotIx, (s.slot i).state = .committing ↔ k.commit.map Held.slot = some i
  held : ∀ c ∈ k.commit, (s.slot c.slot).page = some c.page ∧ c.bytes ≠ 0 ∧ c.bytes &&& (s.slot c.slot).present = c.bytes
  nodup : (s.wanted k.awaited).Nodup
  fill : ∀ i : SlotIx, .fill i ∈ s.wanted k.awaited → (s.slot i).fillPending ≠ none
  port : ∀ p, ¬k.loose p → s.PortOk (s.wanted k.awaited) p
  loose : ∀ p, k.loose p → s.PortLoose (s.wanted k.awaited) p

variable {k : Ctx}

/-- The core lies in the slots, the collections, the ports and the requests. -/
theorem Core.congr (h : Core k s) (slots : u.slots = s.slots := by rfl) (freeList : u.freeList = s.freeList := by rfl)
    (recency : u.recency = s.recency := by rfl) (ageList : u.ageList = s.ageList := by rfl) (queue : u.queue = s.queue := by rfl)
    (pinned : u.pinned = s.pinned := by rfl) (portA : u.portA = s.portA := by rfl) (portB : u.portB = s.portB := by rfl)
    (requests : u.requests = s.requests := by rfl) : Core k u := by
  have hslot : ∀ i : SlotIx, u.slot i = s.slot i := fun i => by unfold State.slot; rw [slots]
  have hport : ∀ p, u.port p = s.port p := fun p => by cases p with | a => exact portA | b => exact portB
  have hwanted : u.wanted k.awaited = s.wanted k.awaited := by unfold State.wanted; rw [requests]
  obtain ⟨hcoll, hqueued, hok, hcommitting, hheld, hnodup, hfill, hports, hloose⟩ := h
  refine ⟨?_, ?_, ?_, ?_, ?_, ?_, ?_, fun p hp => ?_, fun p hp => ?_⟩
  · simpa only [State.collectionsOk, State.holds, hslot, freeList, recency, ageList, queue, pinned] using hcoll
  · simpa only [queue] using hqueued
  · simpa only [hslot] using hok
  · simpa only [hslot] using hcommitting
  · simpa only [hslot] using hheld
  · simpa only [hwanted] using hnodup
  · simpa only [hslot, hwanted] using hfill
  · obtain ⟨hf, hs, hw, hb⟩ := hports p hp
    exact ⟨by rwa [hport], by rwa [hport], by simpa only [State.waitOk, hslot, hport] using hw, by rwa [hport, hwanted]⟩
  · obtain ⟨ha, hw, hb⟩ := hloose p hp
    exact ⟨by rwa [hport], by simpa only [hslot] using hw, by rwa [hwanted]⟩

/-- A change of one slot, and with it of its place in the collections. -/
structure SlotUpdate (i : SlotIx) (s u : State) : Prop where
  other : ∀ j : SlotIx, i ≠ j → u.slot j = s.slot j
  port : ∀ p, u.port p = s.port p
  coll : s.collectionsOk → u.collectionsOk
  queue : s.queue ≠ [] → u.queue ≠ []

/-- A change of one slot, and perhaps of its fill request. -/
theorem Core.fillUpdate (h : Core k s) {a : Option Request} (hu : SlotUpdate i s u) (hok : (u.slot i).Ok) (hkeep : (s.slot i).Keeps (u.slot i))
    (hnodup : (s.wanted k.awaited).Nodup → (u.wanted a).Nodup) (hwanted : ∀ r ∈ u.wanted a, r ∈ s.wanted k.awaited ∨ r = .fill i)
    (hfill : .fill i ∈ u.wanted a → (u.slot i).fillPending ≠ none) : Core { k with awaited := a } u := by
  have hcases : ∀ {P : Slot → Slot → Prop}, P (s.slot i) (u.slot i) → (∀ x, P x x) → ∀ j, P (s.slot j) (u.slot j) := fun {P} hi hrefl j => by
    by_cases hj : i = j
    · exact hj ▸ hi
    · rw [hu.other j hj]
      exact hrefl _
  have hstate := hcases (P := fun x y => y.state = .committing ↔ x.state = .committing) hkeep.committing fun _ => Iff.rfl
  have hwait := hcases (P := fun x y => ∀ p, y.wait p = x.wait p) hkeep.wait fun _ _ => rfl
  have hheld := hcases (P := fun x y => x.state = .committing → y.page = x.page ∧ x.present &&& y.present = x.present) hkeep.held
    fun _ _ => ⟨rfl, BitVec.and_self⟩
  have hbypass : ∀ p, .bypass p ∈ u.wanted a → .bypass p ∈ s.wanted k.awaited := fun p hin => (hwanted _ hin).resolve_right nofun
  refine ⟨hu.coll h.coll, fun hq => hu.queue (h.queued hq), fun j => ?_, fun j => (hstate j).trans (h.committing j), fun c hc => ?_,
    hnodup h.nodup, fun j hj => ?_, fun p hp => ?_, fun p hp => ?_⟩
  · by_cases hj : i = j
    · exact hj ▸ hok
    · rw [hu.other j hj]
      exact h.slot j
  · obtain ⟨hpage, hne, hbytes⟩ := h.held c hc
    have hcommitting : (s.slot c.slot).state = .committing := (h.committing c.slot).2 (by rw [Option.mem_def.1 hc]; rfl)
    obtain ⟨hsame, hgrows⟩ := hheld c.slot hcommitting
    exact ⟨hsame.trans hpage, hne, inter_eq_left_trans hbytes hgrows⟩
  · by_cases hij : i = j
    · subst hij
      exact hfill hj
    · rw [hu.other j hij]
      exact h.fill j ((hwanted _ hj).resolve_right fun e => hij (Request.fill.inj e).symm)
  · obtain ⟨hf, hs, hw, hb⟩ := h.port p hp
    refine ⟨by rwa [hu.port], by rwa [hu.port], fun j => ?_, fun hin => by rw [hu.port]; exact hb (hbypass p hin)⟩
    rw [hwait, hu.port]
    exact hw j
  · obtain ⟨ha, hw, hb⟩ := h.loose p hp
    refine ⟨by rwa [hu.port], fun j => ?_, fun hin => hb (hbypass p hin)⟩
    rw [hwait]
    exact hw j

/-- A change of one slot that leaves the requests and its fill as they are. -/
theorem Core.slotUpdate (h : Core k s) (hu : SlotUpdate i s u) (hrequests : u.requests = s.requests) (hok : (u.slot i).Ok)
    (hkeep : (s.slot i).Keeps (u.slot i)) (hfill : (s.slot i).fillPending ≠ none → (u.slot i).fillPending ≠ none) : Core k u := by
  have hwanted : u.wanted k.awaited = s.wanted k.awaited := by
    unfold State.wanted
    rw [hrequests]
  exact h.fillUpdate hu hok hkeep (hwanted ▸ id) (fun r hr => .inl (hwanted ▸ hr)) fun hin => hfill (h.fill i (hwanted ▸ hin))

theorem State.modSlot_update (s : State) (i : SlotIx) {f : Slot → Slot} (hstate : (f (s.slot i)).state = (s.slot i).state) :
    SlotUpdate i s (s.modSlot i f) where
  other := fun _ hj => State.slot_modSlot_ne s f hj
  port := s.port_modSlot i f
  coll := fun h => State.modSlot_collectionsOk h i hstate
  queue := id

/-- A change of a slot that leaves its state. -/
theorem Core.modSlot (h : Core k s) (f : Slot → Slot) (hstate : (f (s.slot i)).state = (s.slot i).state) (hok : (f (s.slot i)).Ok)
    (hkeep : (s.slot i).Keeps (f (s.slot i))) (hfill : (f (s.slot i)).fillPending = (s.slot i).fillPending := by rfl) : Core k (s.modSlot i f) :=
  h.slotUpdate (s.modSlot_update i hstate) rfl (by rwa [State.slot_modSlot_same]) (by rwa [State.slot_modSlot_same])
    (by rw [State.slot_modSlot_same, hfill]; exact id)

theorem State.moveTo_queue (s : State) (i : SlotIx) (st : SlotState) (h : (s.slot i).state ≠ .sealed) (hq : s.queue ≠ []) :
    (s.moveTo i st).queue ≠ [] := by
  have hleft : (s.leave i).queue = s.queue := by
    unfold State.leave
    cases hs : (s.slot i).state with
    | sealed => exact absurd hs h
    | _ => rfl
  have hmod : ((s.leave i).modSlot i (·.become st)).queue = s.queue := hleft
  unfold State.moveTo
  cases st with
  | sealed => exact List.append_ne_nil_of_right_ne_nil _ (List.cons_ne_nil _ _)
  | _ => exact fun hz => hq (hmod.symm.trans hz)

theorem State.moveTo_update (s : State) (i : SlotIx) (st : SlotState) (h : (s.slot i).state ≠ .sealed) : SlotUpdate i s (s.moveTo i st) where
  other := fun _ hj => State.slot_moveTo_ne s st hj
  port := (s.moveTo_frame i st).port
  coll := fun hc => State.moveTo_collectionsOk hc i st
  queue := s.moveTo_queue i st h

theorem SlotUpdate.trans {v : State} (h : SlotUpdate i s u) (h' : SlotUpdate i u v) : SlotUpdate i s v where
  other := fun j hj => (h'.other j hj).trans (h.other j hj)
  port := fun p => (h'.port p).trans (h.port p)
  coll := h'.coll ∘ h.coll
  queue := h'.queue ∘ h.queue

/-- A slot that is neither queued nor COMMITTING goes to another state that its dirty set allows. -/
theorem Core.moveTo (h : Core k s) {st : SlotState} (hfree : (s.slot i).state ≠ .free) (hsealed : (s.slot i).state ≠ .sealed)
    (hcommitting : (s.slot i).state ≠ .committing) (hst : st ≠ .free ∧ st ≠ .committing) (hclean : st = .clean → (s.slot i).dirty = 0)
    (hdirty : st = .dirty ∨ st = .sealed ∨ st = .pinned → (s.slot i).dirty ≠ 0) : Core k (s.moveTo i st) :=
  h.slotUpdate (s.moveTo_update i st hsealed) (s.moveTo_frame i st).requests
    (by rw [State.slot_moveTo_same]; exact (h.slot i).become hfree hst.1 hclean hdirty)
    (by rw [State.slot_moveTo_same]; exact .become hcommitting hst.2)
    (by rw [State.slot_moveTo_same, Slot.become_fillPending]; exact id)

theorem Core.foldl {α : Type} {f : State → α → State} (hf : ∀ m a, Core k m → Core k (f m a)) (l : List α) (h : Core k s) :
    Core k (l.foldl f s) := by
  induction l generalizing s with
  | nil => exact h
  | cons a rest ih => exact ih (hf s a h)

/-! ### Deadlines and seals -/

theorem Core.modDeadlines (h : Core k s) (f : Slot → Slot)
    (hf : f (s.slot i) = { s.slot i with settle := (f (s.slot i)).settle, age := (f (s.slot i)).age })
    (hdirty : (s.slot i).state = .dirty ∨ (f (s.slot i)).settle = none ∧ (f (s.slot i)).age = none) : Core k (s.modSlot i f) := by
  obtain ⟨hsets, ⟨hpage, hsince, -⟩, hidle⟩ := h.slot i
  refine h.modSlot f (by rw [hf]) ?_ ?_ (by rw [hf])
  · rw [hf]
    exact ⟨hsets, ⟨hpage, hsince, fun hne => hdirty.resolve_left hne⟩, hidle⟩
  · rw [hf]
    exact {}

theorem Core.giveDeadlines (h : Core k s) (hdirty : (s.slot i).state = .dirty) : Core k (s.giveDeadlines i) := by
  unfold State.giveDeadlines
  split
  · exact h.modDeadlines _ rfl (.inl hdirty)
  · exact h

theorem Core.clearDeadlines (h : Core k s) : Core k s.clearDeadlines :=
  Core.foldl (fun _ _ hm => hm.modDeadlines _ rfl (.inr ⟨rfl, rfl⟩)) allSlots h

theorem Core.sealOne (h : Core k s) (i : SlotIx) : Core k (s.sealOne i) := by
  unfold State.sealOne
  split
  · rename_i hdirty
    obtain ⟨⟨-, -, -, hne⟩, -, -⟩ := h.slot i
    exact h.moveTo (by rw [hdirty]; nofun) (by rw [hdirty]; nofun) (by rw [hdirty]; nofun) ⟨nofun, nofun⟩ nofun fun _ => hne (.inl hdirty)
  · exact h

theorem Core.sealNamed (h : Core k s) (i : SlotIx) : Core k (s.sealNamed i) := by
  unfold State.sealNamed
  split
  · split
    · exact (Core.foldl (fun _ _ hm => hm.sealOne _) _ h).sealOne i
    · exact h.sealOne i
  · exact h

theorem Core.sealAll (h : Core k s) : Core k s.sealAll := Core.foldl (fun _ _ hm => hm.sealOne _) _ h

theorem Core.fullPage (h : Core k s) (i : SlotIx) : Core k (s.fullPage i) := by
  unfold State.fullPage
  split
  · exact h.sealNamed i
  · exact h

theorem Core.highWater (h : Core k s) : Core k s.highWater := by
  unfold State.highWater
  split
  · exact Core.foldl (fun _ _ hm => hm.sealOne _) _ h
  · exact h

theorem Core.pfwSeal (h : Core k s) (i : SlotIx) : Core k (s.pfwSeal i) := by
  unfold State.pfwSeal
  split
  · exact h.sealNamed i
  · exact h

theorem Core.retrySeals (h : Core k s) : Core k s.retrySeals := by
  unfold State.retrySeals
  split
  · exact Core.foldl (fun _ _ hm => hm.sealOne _) _ h
  · exact h

/-! ### Merges -/

theorem Access.offsets_ne_zero (h : acc.size ≠ 3) : acc.offsets ≠ 0 := fun hz => by
  have hbit := congrArg (fun v : OffsetSet => v.getLsbD acc.offset) hz
  have hsize : 0 < sizeBytes acc.size := (by decide : ∀ z : BitVec 2, z ≠ 3 → 0 < sizeBytes z) _ h
  have hoff : acc.offset < 64 := Nat.mod_lt _ (by decide)
  simp only [Access.offsets, span_getLsbD, BitVec.ofNat_eq_ofNat, BitVec.getLsbD_zero, decide_eq_false_iff_not] at hbit
  exact hbit ⟨hoff, Nat.le_refl _, Nat.lt_add_of_pos_right hsize⟩

/-- Bytes that join a dirty set give it a dirty-since time. -/
theorem dirtySince_iff {since : Option Time} {dirty add : OffsetSet} (h : since = none ↔ dirty = 0) (hadd : add ≠ 0) (now : Time) :
    (if dirty = 0 then some now else since) = none ↔ dirty ||| add = 0 := by
  refine iff_of_false (fun hnone => ?_) (union_ne_zero_right hadd dirty)
  split at hnone
  · cases hnone
  · exact absurd (h.1 hnone) ‹_›

/-- The bytes of a write join a slot that carries a page; a CLEAN one becomes DIRTY with them. -/
theorem Slot.Ok.merge (h : x.Ok) (hx : x.state ≠ .free) (hoff : acc.offsets ≠ 0) (now : Time) {st : SlotState}
    (hst : st ≠ .free ∧ st ≠ .clean) (hsame : st = .dirty ∨ st = x.state) : Slot.Ok { x.merge acc now with state := st } := by
  obtain ⟨⟨hsub, -, -, -⟩, ⟨hpage, hsince, hdl⟩, -⟩ := h
  refine ⟨⟨?_, fun hf => absurd hf hst.1, fun hc => absurd hc hst.2, fun _ => union_ne_zero_right hoff _⟩,
    ⟨iff_of_false (fun hp => hx (hpage.1 hp)) hst.1, dirtySince_iff hsince hoff now, fun hd => ?_⟩, fun hf => absurd hf hst.1⟩
  · refine inter_eq_left_iff.2 fun n hn => ?_
    simp only [Slot.merge_dirty, Slot.merge_present, BitVec.getLsbD_or, Bool.or_eq_true] at hn ⊢
    exact hn.imp (inter_eq_left_iff.1 hsub n) id
  · have hx' := hsame.resolve_left hd
    exact hdl fun hxd => hd (hx'.trans hxd)

theorem Core.mergeBytes (h : Core k s) (hfree : (s.slot i).state ≠ .free) (hclean : (s.slot i).state ≠ .clean) (hsize : acc.size ≠ 3)
    (now : Time) : Core k (s.modSlot i fun x => x.merge acc now) :=
  h.modSlot (fun x => x.merge acc now) rfl ((h.slot i).merge hfree (Access.offsets_ne_zero hsize) now ⟨hfree, hclean⟩ (.inr rfl))
    { held := fun _ => ⟨rfl, inter_union_left _ _⟩ }

theorem Core.mergeClean (h : Core k s) (hclean : (s.slot i).state = .clean) (hsize : acc.size ≠ 3) (now : Time) :
    Core k ((s.modSlot i fun x => x.merge acc now).moveTo i .dirty) := by
  have hslot : (s.modSlot i fun x => x.merge acc now).slot i = (s.slot i).merge acc now := State.slot_modSlot_same s i _
  refine h.slotUpdate ((s.modSlot_update i rfl).trans (State.moveTo_update _ i .dirty (by rw [hslot, Slot.merge_state, hclean]; nofun)))
    (State.moveTo_frame _ i .dirty).requests ?_ ?_ ?_
  · rw [State.slot_moveTo_same, hslot]
    exact (h.slot i).merge (by rw [hclean]; nofun) (Access.offsets_ne_zero hsize) now ⟨nofun, nofun⟩ (.inl rfl)
  · rw [State.slot_moveTo_same, hslot]
    exact .of_not_committing (fun p => by cases p <;> rfl) (by rw [hclean]; nofun) nofun
  · rw [State.slot_moveTo_same, hslot]
    exact id

theorem Core.merge (h : Core k s) (hfree : (s.slot i).state ≠ .free) (hsize : acc.size ≠ 3) : Core k (s.merge i acc) := by
  have hbytes := fun hclean => h.mergeBytes (i := i) hfree hclean hsize s.now
  unfold State.merge
  dsimp only
  split
  · exact h
  · rename_i hclean
    refine ((h.mergeClean hclean hsize s.now).giveDeadlines ?_).highWater
    rw [State.slot_moveTo_same, Slot.become_state]
  · rename_i hdirty
    refine ((hbytes (by rw [hdirty]; nofun)).modDeadlines _ ?_ (.inl ?_)).fullPage i
    · rw [Slot.restartSettle_eq]
    · rw [State.slot_modSlot_same, Slot.merge_state, hdirty]
  · exact hbytes (by rw [‹(s.slot i).state = _›]; nofun)
  · exact hbytes (by rw [‹(s.slot i).state = _›]; nofun)
  · exact hbytes (by rw [‹(s.slot i).state = _›]; nofun)

end Sys2Proof.Machine

/-! PROOF. Waits and requests through the access unit's operations (chapter 2, 5.5): a port finds its place or loses it, a fill is
requested, joined or withdrawn. -/

namespace Sys2Proof.Machine

variable {s u : State} {i j : SlotIx} {p q : PortId} {acc : Access} {x y : Slot} {k : Ctx} {h' : HostPort}

theorem nodup_append_singleton {α : Type} {a : α} {l : List α} (hl : l.Nodup) (ha : a ∉ l) : (l ++ [a]).Nodup :=
  List.nodup_append.2 ⟨hl, List.pairwise_singleton _ a, fun _ hb _ hc heq => ha (List.mem_singleton.1 hc ▸ heq ▸ hb)⟩

/-! ### Ports that lose and find their place -/

/-- The context with one port in its place. -/
def Ctx.tight (k : Ctx) (p : PortId) : Ctx := { k with loose := fun q => k.loose q ∧ q ≠ p }

/-- The context with one port without a place. -/
def Ctx.loosen (k : Ctx) (p : PortId) : Ctx := { k with loose := fun q => k.loose q ∨ q = p }

theorem Ctx.tight_of_not_loose (h : ¬k.loose p) : k.tight p = k := by
  have : (fun q => k.loose q ∧ q ≠ p) = k.loose := funext fun q => propext ⟨And.left, fun hq => ⟨hq, fun e => h (e ▸ hq)⟩⟩
  unfold Ctx.tight
  rw [this]

theorem Ctx.tight_loosen (h : ¬k.loose p) : (k.loosen p).tight p = k := by
  have : (fun q => (k.loose q ∨ q = p) ∧ q ≠ p) = k.loose := funext fun q => propext
    ⟨fun hq => hq.1.resolve_right hq.2, fun hq => ⟨.inl hq, fun e => h (e ▸ hq)⟩⟩
  unfold Ctx.tight Ctx.loosen
  rw [this]

/-- A change of one port, of its waiting at the slots and of the requests, its own or a granted one that is dropped. -/
structure PortUpdate (p : PortId) (a a' : Option Request) (s u : State) : Prop where
  slot : ∀ j : SlotIx, u.slot j = (s.slot j).setWait p ((u.slot j).wait p)
  free : ∀ j : SlotIx, (s.slot j).state = .free → (u.slot j).wait p = none ∨ (u.slot j).wait p = (s.slot j).wait p
  other : ∀ q, p ≠ q → u.port q = s.port q
  coll : s.collectionsOk → u.collectionsOk
  queue : u.queue = s.queue := by rfl
  nodup : (s.wanted a).Nodup → (u.wanted a').Nodup := by exact id
  wanted : ∀ r ∈ u.wanted a', r ∈ s.wanted a ∨ r = .bypass p := by exact fun _ => Or.inl

theorem Core.portUpdate (h : Core k s) {a : Option Request} {L : PortId → Prop} (hu : PortUpdate p k.awaited a s u)
    (hL : ∀ q, p ≠ q → (L q ↔ k.loose q)) (hok : ¬L p → u.PortOk (u.wanted a) p) (hloose : L p → u.PortLoose (u.wanted a) p) :
    Core { k with awaited := a, loose := L } u := by
  have hstate : ∀ j, (u.slot j).state = (s.slot j).state := fun j => by rw [hu.slot, Slot.setWait_state]
  have hpage : ∀ j, (u.slot j).page = (s.slot j).page := fun j => by rw [hu.slot, Slot.setWait_page]
  have hpresent : ∀ j, (u.slot j).present = (s.slot j).present := fun j => by rw [hu.slot, Slot.setWait_present]
  have hdirty : ∀ j, (u.slot j).dirty = (s.slot j).dirty := fun j => by rw [hu.slot, Slot.setWait_dirty]
  have hsince : ∀ j, (u.slot j).dirtySince = (s.slot j).dirtySince := fun j => by rw [hu.slot, Slot.setWait_dirtySince]
  have hsettle : ∀ j, (u.slot j).settle = (s.slot j).settle := fun j => by rw [hu.slot, Slot.setWait_settle]
  have hage : ∀ j, (u.slot j).age = (s.slot j).age := fun j => by rw [hu.slot, Slot.setWait_age]
  have hfill : ∀ j, (u.slot j).fillPending = (s.slot j).fillPending := fun j => by rw [hu.slot, Slot.setWait_fillPending]
  have hwait : ∀ j q, p ≠ q → (u.slot j).wait q = (s.slot j).wait q := fun j q hq => by rw [hu.slot, Slot.wait_setWait_ne _ _ hq]
  have hbypass : ∀ q, p ≠ q → .bypass q ∈ u.wanted a → .bypass q ∈ s.wanted k.awaited := fun q hq hin =>
    (hu.wanted _ hin).resolve_right fun e => hq (Request.bypass.inj e).symm
  refine ⟨hu.coll h.coll, fun hq => by rw [hu.queue]; exact h.queued hq, fun j => ?_, fun j => ?_, fun c hc => ?_, hu.nodup h.nodup,
    fun j hj => ?_, fun q hq => ?_, fun q hq => ?_⟩
  · obtain ⟨hsets, hfields, hidle⟩ := h.slot j
    refine ⟨?_, ?_, fun hfree => ?_⟩
    · simpa only [Slot.setsOk, hstate, hpresent, hdirty] using hsets
    · simpa only [Slot.fieldsOk, hstate, hpage, hdirty, hsince, hsettle, hage] using hfields
    · rw [hstate] at hfree
      obtain ⟨hf, ha, hb⟩ := hidle hfree
      have hp : (u.slot j).wait p = none := (hu.free j hfree).elim id fun e => e.trans (by cases p with | a => exact ha | b => exact hb)
      refine ⟨by rwa [hfill], ?_, ?_⟩
      · cases p
        · exact hp
        · exact (hwait j .a nofun).trans ha
      · cases p
        · exact (hwait j .b nofun).trans hb
        · exact hp
  · rw [hstate]
    exact h.committing j
  · rw [hpage, hpresent]
    exact h.held c hc
  · rw [hfill]
    exact h.fill j ((hu.wanted _ hj).resolve_right nofun)
  · by_cases hpq : p = q
    · exact hpq ▸ hok (hpq ▸ hq)
    · obtain ⟨hf, hs, hw, hb⟩ := h.port q fun hk => hq ((hL q hpq).2 hk)
      refine ⟨by rwa [hu.other q hpq], by rwa [hu.other q hpq], fun j => ?_, fun hin => by rw [hu.other q hpq]; exact hb (hbypass q hpq hin)⟩
      rw [hwait j q hpq, hu.other q hpq]
      exact hw j
  · by_cases hpq : p = q
    · exact hpq ▸ hloose (hpq ▸ hq)
    · obtain ⟨ha, hw, hb⟩ := h.loose q ((hL q hpq).1 hq)
      refine ⟨by rwa [hu.other q hpq], fun j => ?_, fun hin => hb (hbypass q hpq hin)⟩
      rw [hwait j q hpq]
      exact hw j

theorem Slot.setWait_wait (x : Slot) (p : PortId) : x.setWait p (x.wait p) = x := by cases p <;> rfl

/-- The port's record alone is replaced. -/
theorem State.setPort_update (s : State) (p : PortId) (h' : HostPort) (a : Option Request) : PortUpdate p a a s (s.setPort p h') where
  slot := fun j => by rw [State.slot_setPort, Slot.setWait_wait]
  free := fun j _ => .inr (by rw [State.slot_setPort])
  other := fun q hq => State.port_setPort_ne s h' hq
  coll := fun hc => by cases p <;> exact hc
  queue := by cases p <;> rfl
  nodup := fun h => by cases p <;> exact h
  wanted := fun r hr => .inl (by cases p <;> exact hr)

theorem State.wanted_setPort (s : State) (p : PortId) (h' : HostPort) (a : Option Request) : (s.setPort p h').wanted a = s.wanted a := by
  cases p <;> rfl

/-- Nothing outstanding (R27). -/
structure HostPort.Idled (h : HostPort) : Prop where
  state : h.state = .idle
  access : h.access = none
  stall : h.stall = none
  waited : h.waited = none

theorem HostPort.Idled.present (h : HostPort) (now : Time) (reason : Reason) (rd : BitVec 32) : (h.present now reason rd).Idled :=
  ⟨rfl, rfl, rfl, rfl⟩

/-- A port that no slot and no request knows is sound in any state but WAIT_FILL and WAIT_BYPASS, and there with a request. -/
theorem State.PortOk.unknown {w : List Request} (hfields : (s.port p).fieldsOk) (hsize : (s.port p).access.map Access.size ≠ some 3)
    (hwaited : (s.port p).waited = none) (hwait : ∀ j : SlotIx, (s.slot j).wait p = none)
    (hbypass : .bypass p ∈ w → (s.port p).state = .waitBypass) : s.PortOk w p :=
  ⟨hfields, hsize, fun j => by rw [hwaited]; exact hwait j, hbypass⟩

/-- The port's access is over. -/
theorem Core.idle (h : Core k s) (hp : k.loose p) (hidle : h'.Idled) : Core (k.tight p) (s.setPort p h') := by
  obtain ⟨-, hwait, hbypass⟩ := h.loose p hp
  obtain ⟨hstate, haccess, hstall, hwaited⟩ := hidle
  have hport := State.port_setPort_same s p h'
  refine h.portUpdate (s.setPort_update p h' _) (fun q hq => ⟨And.left, fun hl => ⟨hl, hq.symm⟩⟩) (fun _ => .unknown ?_ ?_ ?_ ?_ ?_)
    fun hl => absurd rfl hl.2
  · rw [hport]
    exact ⟨iff_of_true haccess hstate, iff_of_true hstall hstate, iff_of_true hwaited (by rw [hstate]; nofun)⟩
  · rw [hport, haccess]
    nofun
  · rw [hport, hwaited]
  · simpa only [State.slot_setPort] using hwait
  · rw [State.wanted_setPort]
    exact fun hin => absurd hin hbypass

theorem Core.answer (h : Core k s) (hp : k.loose p) (rd : BitVec 32) : Core (k.tight p) (s.answer p rd) :=
  h.idle hp (.present _ _ _ _)

theorem Core.answerNotReady (h : Core k s) (hp : k.loose p) : Core (k.tight p) (s.answerNotReady p) :=
  h.idle hp (.present _ _ _ _)

theorem Core.answerError (h : Core k s) (hp : k.loose p) (reason : Reason) (detail : Detail) :
    Core (k.tight p) (s.answerError p reason detail) := by
  obtain ⟨⟨acc, hacc, -⟩, -, -⟩ := h.loose p hp
  rw [State.answerError_eq s reason detail hacc]
  exact h.idle hp (.present _ _ _ _)

/-- A port whose access has a place elsewhere than in a slot or a request gives it up. -/
theorem Core.loosen (h : Core k s) (hp : ¬k.loose p) (hidle : (s.port p).state ≠ .idle) (hfill : (s.port p).state ≠ .waitFill)
    (hbypass : .bypass p ∉ s.wanted k.awaited) : Core (k.loosen p) s := by
  obtain ⟨⟨haccess, -, hwaited⟩, hsize, hwait, -⟩ := h.port p hp
  have hu : PortUpdate p k.awaited k.awaited s s :=
    { slot := fun j => (Slot.setWait_wait _ p).symm, free := fun _ _ => .inr rfl, other := fun _ _ => rfl, coll := id }
  refine h.portUpdate hu (fun q hq => ⟨fun hl => hl.resolve_right hq.symm, .inl⟩) (fun hl => absurd (.inr rfl) hl)
    fun _ => ⟨?_, fun j => ?_, hbypass⟩
  · obtain ⟨acc, hacc⟩ := Option.ne_none_iff_exists'.1 fun hn => hidle (haccess.1 hn)
    exact ⟨acc, hacc, fun h3 => hsize (by rw [hacc, Option.map_some, h3])⟩
  · rw [hwait j, hwaited.2 hfill]
    exact if_neg nofun

theorem Core.loosenWrite (h : Core k s) (hp : ¬k.loose p) (hstate : (s.port p).state = .waitSlot) : Core (k.loosen p) s :=
  h.loosen hp (by rw [hstate]; nofun) (by rw [hstate]; nofun) fun hin => by
    have := (h.port p hp).bypass hin
    rw [hstate] at this
    cases this

/-- A port takes an access that has no place yet (R25). -/
theorem Core.take (h : Core k s) (hp : ¬k.loose p) (hidle : (s.port p).state = .idle) (hacc : h'.access = some acc) (hsize : acc.size ≠ 3) :
    Core (k.loosen p) (s.setPort p h') := by
  obtain ⟨⟨-, -, hwaited⟩, -, hwait, hbypass⟩ := h.port p hp
  refine h.portUpdate (s.setPort_update p h' _) (fun q hq => ⟨fun hl => hl.resolve_right hq.symm, .inl⟩) (fun hl => absurd (.inr rfl) hl)
    fun _ => ⟨⟨acc, by rw [State.port_setPort_same, hacc], hsize⟩, fun j => ?_, fun hin => ?_⟩
  · rw [State.slot_setPort, hwait j, hwaited.2 (by rw [hidle]; nofun)]
    exact if_neg nofun
  · rw [State.wanted_setPort] at hin
    have := hbypass hin
    rw [hidle] at this
    cases this

/-- A port that waits on a slot leaves it, its access without a place. -/
theorem Core.unwait (h : Core k s) (hw : (s.slot i).wait p ≠ none) :
    ¬k.loose p ∧ (s.port p).state = .waitFill ∧ Core (k.loosen p) (s.modSlot i fun x => x.setWait p none) := by
  have hp : ¬k.loose p := fun hl => hw ((h.loose p hl).wait i)
  obtain ⟨⟨haccess, -, hwaited⟩, hsize, hwait, hbypass⟩ := h.port p hp
  have hi : (s.port p).waited = some i := by
    refine Classical.byContradiction fun hne => ?_
    exact hw ((hwait i).trans (if_neg hne))
  have hstate : (s.port p).state = .waitFill := by
    refine Classical.byContradiction fun hne => ?_
    rw [hwaited.2 hne] at hi
    cases hi
  have hother : ∀ j, ((s.modSlot i fun x => x.setWait p none).slot j).wait p = none := fun j => by
    by_cases hj : i = j
    · subst hj
      rw [State.slot_modSlot_same, Slot.wait_setWait_same]
    · rw [State.slot_modSlot_ne _ _ hj, hwait j, hi]
      exact if_neg fun e => hj (Option.some.inj e)
  refine ⟨hp, hstate, h.portUpdate (a := k.awaited) ?_ (fun q hq => ⟨fun hl => hl.resolve_right hq.symm, .inl⟩) (fun hl => absurd (.inr rfl) hl)
    fun _ => ⟨?_, hother, fun hin => ?_⟩⟩
  · refine { slot := fun j => ?_, free := fun j _ => .inl (hother j), other := fun q _ => s.port_modSlot i _ q
             coll := fun hc => State.modSlot_collectionsOk hc i (Slot.setWait_state _ p none) }
    rw [hother]
    by_cases hj : i = j
    · subst hj
      rw [State.slot_modSlot_same]
    · rw [State.slot_modSlot_ne _ _ hj, ← (show (s.slot j).wait p = none by rw [← hother j, State.slot_modSlot_ne _ _ hj]), Slot.setWait_wait]
  · rw [State.port_modSlot]
    obtain ⟨acc, hacc⟩ := Option.ne_none_iff_exists'.1 fun hn => by
      have := haccess.1 hn
      rw [hstate] at this
      cases this
    exact ⟨acc, hacc, fun h3 => hsize (by rw [hacc, Option.map_some, h3])⟩
  · have := hbypass hin
    rw [hstate] at this
    cases this

theorem State.enterWait_shape (s : State) (p : PortId) (acc : Access) (st : PortState) (w : Option SlotIx) :
    ∃ d, s.enterWait p acc st w = s.setPort p { s.port p with state := st, waited := w, stall := some d } := by
  refine ⟨(s.port p).stall.getD (acc.arrival + s.params.stall * Config.stallUnit), ?_⟩
  unfold State.enterWait State.modPort
  dsimp only
  cases (s.port p).stall <;> rfl

/-- A port that takes up a wait without a slot (R27). -/
theorem State.PortLoose.awaiting {w w' : List Request} (hl : s.PortLoose w p) {st : PortState} {d : Time} (hst : st ≠ .idle ∧ st ≠ .waitFill)
    (hport : u.port p = { s.port p with state := st, waited := none, stall := some d })
    (hslot : ∀ j : SlotIx, (u.slot j).wait p = (s.slot j).wait p)
    (hbypass : .bypass p ∈ w' → st = .waitBypass) : u.PortOk w' p := by
  obtain ⟨⟨acc, hacc, hsize⟩, hwait, -⟩ := hl
  refine .unknown ?_ ?_ (by rw [hport]) (fun j => (hslot j).trans (hwait j)) (by rw [hport]; exact hbypass)
  · rw [hport]
    exact ⟨iff_of_false (by rw [hacc]; nofun) hst.1, iff_of_false nofun hst.1, iff_of_true rfl hst.2⟩
  · rw [hport, hacc]
    exact fun e => hsize (Option.some.inj e)

theorem Core.waitSlot (h : Core k s) (hp : k.loose p) (acc : Access) : Core (k.tight p) (s.enterWait p acc .waitSlot none) := by
  have hl := h.loose p hp
  obtain ⟨d, hd⟩ := s.enterWait_shape p acc .waitSlot none
  rw [hd]
  refine h.portUpdate (s.setPort_update p _ _) (fun q hq => ⟨And.left, fun hl => ⟨hl, hq.symm⟩⟩) (fun _ => ?_) fun hl => absurd rfl hl.2
  refine hl.awaiting (st := .waitSlot) ⟨nofun, nofun⟩ (State.port_setPort_same ..) (fun j => by rw [State.slot_setPort]) fun hin => ?_
  rw [State.wanted_setPort] at hin
  exact absurd hin hl.bypass

/-- A port that makes its bypass read (R32). -/
theorem Core.waitBypass (h : Core k s) (hp : k.loose p) (acc : Access) :
    Core (k.tight p) (({ s with requests := s.requests ++ [.bypass p] } : State).enterWait p acc .waitBypass none) := by
  have hl := h.loose p hp
  have hwanted : ∀ (h' : HostPort), (({ s with requests := s.requests ++ [.bypass p] } : State).setPort p h').wanted k.awaited =
      s.wanted k.awaited ++ [.bypass p] := fun h' => by
    rw [State.wanted_setPort]
    exact (List.append_assoc _ _ _).symm
  obtain ⟨d, hd⟩ := State.enterWait_shape { s with requests := s.requests ++ [.bypass p] } p acc .waitBypass none
  rw [hd]
  refine h.portUpdate (a := k.awaited) ?_ (fun q hq => ⟨And.left, fun hl => ⟨hl, hq.symm⟩⟩) (fun _ => ?_) fun hl => absurd rfl hl.2
  · refine { slot := fun j => ?_, free := fun j _ => .inr ?_, other := fun q hq => ?_, coll := fun hc => ?_, queue := ?_, nodup := fun hn => ?_
             wanted := fun r hr => ?_ }
    · rw [State.slot_setPort]
      exact (Slot.setWait_wait _ p).symm
    · rw [State.slot_setPort]
      rfl
    · exact (State.port_setPort_ne _ _ hq).trans (by cases q <;> rfl)
    · cases p <;> exact hc
    · cases p <;> rfl
    · rw [hwanted]
      exact nodup_append_singleton hn hl.bypass
    · rw [hwanted] at hr
      exact (List.mem_append.1 hr).imp id List.mem_singleton.1
  · exact hl.awaiting (st := .waitBypass) (d := d) ⟨nofun, nofun⟩ ((State.port_setPort_same ..).trans (by cases p <;> rfl))
      (fun j => by rw [State.slot_setPort]; rfl) fun _ => rfl

/-- A port that waits on a slot that carries a page, with the offsets of its access (R31). -/
theorem Core.waitFill (h : Core k s) (hp : k.loose p) (hacc : (s.port p).access = some acc) (hi : (s.slot i).state ≠ .free) (d : Time) :
    Core (k.tight p) ((s.modSlot i fun x => x.setWait p (some acc.offsets)).setPort p
      { s.port p with state := .waitFill, waited := some i, stall := some d }) := by
  obtain ⟨⟨acc', hacc', hsize⟩, hwait, hbypass⟩ := h.loose p hp
  obtain rfl : acc' = acc := Option.some.inj (hacc'.symm.trans hacc)
  have hother : ∀ j, ((s.modSlot i fun x => x.setWait p (some acc'.offsets)).slot j).wait p = if i = j then some acc'.offsets else none := fun j => by
    by_cases hj : i = j
    · subst hj
      rw [State.slot_modSlot_same, Slot.wait_setWait_same, if_pos rfl]
    · rw [State.slot_modSlot_ne _ _ hj, hwait j, if_neg hj]
  refine h.portUpdate (a := k.awaited) ?_ (fun q hq => ⟨And.left, fun hl => ⟨hl, hq.symm⟩⟩) (fun _ => ⟨?_, ?_, fun j => ?_, ?_⟩) fun hl =>
    absurd rfl hl.2
  · refine { slot := fun j => ?_, free := fun j hj => .inl ?_, other := fun q hq => ?_, coll := fun hc => ?_, queue := ?_, nodup := ?_, wanted := ?_ }
    · rw [State.slot_setPort, hother]
      by_cases hj : i = j
      · subst hj
        rw [State.slot_modSlot_same, if_pos rfl]
      · rw [State.slot_modSlot_ne _ _ hj, if_neg hj, ← hwait j, Slot.setWait_wait]
    · rw [State.slot_setPort, hother, if_neg fun e => hi (by rw [e]; exact hj)]
    · exact (State.port_setPort_ne _ _ hq).trans (State.port_modSlot ..)
    · have hm := State.modSlot_collectionsOk (f := fun x => x.setWait p (some acc'.offsets)) hc i (Slot.setWait_state _ p _)
      cases p <;> exact hm
    · cases p <;> rfl
    · rw [State.wanted_setPort]
      exact id
    · rw [State.wanted_setPort]
      exact fun _ => .inl
  · rw [State.port_setPort_same]
    exact ⟨iff_of_false (by rw [hacc]; nofun) nofun, iff_of_false nofun nofun, iff_of_false nofun (Classical.not_not.2 rfl)⟩
  · rw [State.port_setPort_same, hacc]
    exact fun e => hsize (Option.some.inj e)
  · rw [State.slot_setPort, State.port_setPort_same, hother, hacc]
    exact ite_of_iff Option.some_inj.symm rfl rfl
  · rw [State.wanted_setPort]
    exact fun hin => absurd hin hbypass

end Sys2Proof.Machine

/-! PROOF. The slots that an access takes, uses and releases, and the paths of reads and writes (R10 to R20, R30 to R38). -/

namespace Sys2Proof.Machine

variable {s u : State} {i j : SlotIx} {p q : PortId} {acc : Access} {x y : Slot} {k : Ctx}

/-! ### Slots used, allocated and freed -/

theorem Core.touch (h : Core k s) (i : SlotIx) : Core k (s.touch i) := by
  unfold State.touch
  cases hc : (s.slot i).state with
  | clean =>
    obtain ⟨⟨-, -, hclean, -⟩, -, -⟩ := h.slot i
    exact h.moveTo (by rw [hc]; nofun) (by rw [hc]; nofun) (by rw [hc]; nofun) ⟨nofun, nofun⟩ (fun _ => hclean hc)
      (by rintro (hd | hd | hd) <;> cases hd)
  | _ => exact h

/-- An allocatable slot is FREE or CLEAN, and nothing waits on it (R10). -/
theorem Core.allocatable (h : Core k s) (ha : s.allocatable = some i) : ((s.slot i).state = .free ∨ (s.slot i).state = .clean) ∧ (s.slot i).idle := by
  unfold State.allocatable at ha
  split at ha
  · rename_i hfree
    have hstate := (h.coll.1.2 i).1 (by rw [hfree, Option.some.inj ha]; exact List.mem_cons_self)
    exact ⟨.inl hstate, (h.slot i).idle hstate⟩
  · exact ⟨.inr ((h.coll.2.1.2 i).1 (List.mem_of_find?_eq_some ha)), (s.evictable_iff i).1 (List.find?_some ha)⟩

theorem Slot.idle.wait (h : x.idle) (p : PortId) : x.wait p = none := by
  obtain ⟨-, ha, hb⟩ := h
  cases p
  · exact ha
  · exact hb

theorem Slot.Ok.allocated (x : Slot) (page : Nat) : Slot.Ok { x.emptied with state := .clean, page := some page } :=
  ⟨⟨by simp [Slot.emptied], nofun, fun _ => rfl, by simp⟩, ⟨by simp, by simp [Slot.emptied], fun _ => ⟨rfl, rfl⟩⟩, nofun⟩

theorem Core.allocate (h : Core k s) (ha : s.allocatable = some i) (page : Nat) : Core k (s.allocate i page) := by
  obtain ⟨hstate, hidle⟩ := h.allocatable ha
  have hnot : (s.slot i).state ≠ .sealed ∧ (s.slot i).state ≠ .committing := by
    rcases hstate with hs | hs <;> rw [hs] <;> exact ⟨nofun, nofun⟩
  refine h.slotUpdate ((s.moveTo_update i .clean hnot.1).trans (State.modSlot_update _ i rfl)) (s.allocate_frame i page).requests ?_ ?_ ?_
  · rw [State.slot_allocate_same]
    exact .allocated _ page
  · rw [State.slot_allocate_same]
    exact .of_not_committing (fun p => (Slot.wait_emptied (s.slot i) p).trans (hidle.wait p).symm) hnot.2 nofun
  · exact fun hf => absurd hidle.1 hf

theorem Core.freeSlot (h : Core k s) (hstate : (s.slot i).state = .clean ∨ (s.slot i).state = .pinned) (hidle : (s.slot i).idle) :
    Core k (s.freeSlot i) := by
  have hnot : (s.slot i).state ≠ .sealed ∧ (s.slot i).state ≠ .committing := by
    rcases hstate with hs | hs <;> rw [hs] <;> exact ⟨nofun, nofun⟩
  refine h.slotUpdate ((s.moveTo_update i .free hnot.1).trans (State.modSlot_update _ i rfl)) (s.freeSlot_frame i).requests ?_ ?_ ?_
  · rw [State.slot_freeSlot_same]
    exact .emptied _
  · rw [State.slot_freeSlot_same]
    exact .of_not_committing (fun p => (Slot.wait_emptied (s.slot i) p).trans (hidle.wait p).symm) hnot.2 nofun
  · exact fun hf => absurd hidle.1 hf

/-- A slot that holds nothing and is not FREE is CLEAN (R3, R67). -/
theorem Core.clean_of_empty (h : Core k s) (hfree : (s.slot i).state ≠ .free) (hpresent : (s.slot i).present = 0) (hdirty : (s.slot i).dirty = 0) :
    (s.slot i).state = .clean := by
  obtain ⟨⟨-, -, -, hne⟩, -, -⟩ := h.slot i
  cases hs : (s.slot i).state with
  | free => exact absurd hs hfree
  | clean => rfl
  | dirty => exact absurd hdirty (hne (.inl hs))
  | sealed => exact absurd hdirty (hne (.inr (.inl hs)))
  | pinned => exact absurd hdirty (hne (.inr (.inr hs)))
  | committing =>
    obtain ⟨c, hc, hi⟩ := Option.map_eq_some_iff.1 ((h.committing i).1 hs)
    obtain ⟨-, hbytes, hsub⟩ := h.held c hc
    rw [hi, hpresent] at hsub
    exact absurd (by simpa using hsub.symm) hbytes

theorem Core.releaseIfEmpty (h : Core k s) (i : SlotIx) : Core k (s.releaseIfEmpty i) := by
  unfold State.releaseIfEmpty
  dsimp only
  split
  · rename_i hempty
    obtain ⟨hfree, hpresent, hdirty, hwait, hfill⟩ := hempty
    obtain ⟨ha, hb⟩ := (Slot.unwaited_iff _).1 hwait
    exact h.freeSlot (.inl (h.clean_of_empty hfree hpresent hdirty)) ⟨Option.isNone_iff_eq_none.1 hfill, ha, hb⟩
  · exact h

/-! ### Fill requests -/

theorem Core.requestFill (h : Core k s) (hfree : (s.slot i).state ≠ .free) : Core k (s.requestFill i) := by
  unfold State.requestFill
  cases hf : (s.slot i).fillPending with
  | some w => exact h
  | none =>
    have hslot := State.slot_modSlot_same s i fun x => { x with fillPending := some (~~~x.present) }
    have hwanted : ({ s.modSlot i fun x => { x with fillPending := some (~~~x.present) } with
        requests := s.requests ++ [.fill i] } : State).wanted k.awaited = s.wanted k.awaited ++ [.fill i] := (List.append_assoc _ _ _).symm
    obtain ⟨hsets, hfields, -⟩ := h.slot i
    have hu := s.modSlot_update i (f := fun x => { x with fillPending := some (~~~x.present) }) rfl
    show Core k { s.modSlot i fun x => { x with fillPending := some (~~~x.present) } with requests := s.requests ++ [.fill i] }
    refine h.fillUpdate (a := k.awaited) (i := i) ⟨hu.other, hu.port, hu.coll, hu.queue⟩ ?_ ?_ (fun hn => ?_) (fun r hr => ?_) fun _ => ?_
    · exact hslot ▸ (⟨hsets, hfields, fun hs => absurd hs hfree⟩ : Slot.Ok { s.slot i with fillPending := some (~~~(s.slot i).present) })
    · exact hslot ▸ ({} : (s.slot i).Keeps { s.slot i with fillPending := some (~~~(s.slot i).present) })
    · rw [hwanted]
      exact nodup_append_singleton hn fun hin => h.fill i hin hf
    · exact (List.mem_append.1 (hwanted ▸ hr)).imp id List.mem_singleton.1
    · exact fun hn => nomatch (congrArg Slot.fillPending hslot).symm.trans hn

theorem Core.withdrawFill (h : Core k s) (hne : k.awaited ≠ some (.fill i)) : Core k (s.withdrawFill i) := by
  have hslot := State.slot_modSlot_same s i fun x => { x with fillPending := none }
  have hnodup : s.requests.Nodup := (List.nodup_append.1 h.nodup).2.1
  have hsub : List.Sublist ((s.withdrawFill i).wanted k.awaited) (s.wanted k.awaited) :=
    List.Sublist.append_left List.erase_sublist _
  obtain ⟨hsets, hfields, hidle⟩ := h.slot i
  have hu := s.modSlot_update i (f := fun x => { x with fillPending := none }) rfl
  refine h.fillUpdate (a := k.awaited) (i := i) ⟨hu.other, hu.port, hu.coll, hu.queue⟩ ?_ ?_ (fun hn => hn.sublist hsub)
    (fun r hr => .inl (hsub.subset hr)) fun hin => ?_
  · exact hslot ▸ (⟨hsets, hfields, fun hs => ⟨rfl, (hidle hs).2⟩⟩ : Slot.Ok { s.slot i with fillPending := none })
  · exact hslot ▸ ({} : (s.slot i).Keeps { s.slot i with fillPending := none })
  · rcases List.mem_append.1 hin with ha | hr
    · exact absurd (Option.mem_toList.1 ha) hne
    · exact absurd hr (List.Nodup.not_mem_erase hnodup)

/-! ### Bytes that land -/

theorem Slot.Ok.land (h : x.Ok) (hfree : x.state ≠ .free) (f : Nat → Byte) (offs : OffsetSet) {w : Option OffsetSet} :
    Slot.Ok { x.land f offs with fillPending := w } := by
  obtain ⟨⟨hsub, -, hclean, hne⟩, hfields, -⟩ := h
  refine ⟨⟨?_, fun hs => absurd hs hfree, hclean, hne⟩, hfields, fun hs => absurd hs hfree⟩
  show x.dirty &&& (x.land f offs).present = x.dirty
  rw [Slot.land_present]
  exact inter_eq_left_trans hsub (inter_union_left _ _)

theorem Slot.Keeps.land (x : Slot) (f : Nat → Byte) (offs : OffsetSet) {w : Option OffsetSet} :
    x.Keeps { x.land f offs with fillPending := w } :=
  { held := fun _ => ⟨rfl, by
      show x.present &&& (x.land f offs).present = x.present
      rw [Slot.land_present]
      exact inter_union_left _ _⟩ }

theorem Core.land (h : Core k s) (hfree : (s.slot i).state ≠ .free) (f : Nat → Byte) (offs : OffsetSet) :
    Core k (s.modSlot i fun x => x.land f offs) :=
  h.modSlot (fun x => x.land f offs) rfl ((h.slot i).land hfree f offs) (.land (s.slot i) f offs)

theorem Core.answerWaiter (h : Core k s) (i : SlotIx) (p : PortId) : Core k (State.answerWaiter i s p) := by
  unfold State.answerWaiter
  split
  · rename_i hw _
    split
    · obtain ⟨hp, -, hc⟩ := h.unwait (i := i) (p := p) (by rw [hw]; nofun)
      exact Ctx.tight_loosen hp ▸ hc.answer (.inr rfl) _
    · exact h
  · exact h

theorem Core.answerWaiters (h : Core k s) (i : SlotIx) : Core k (s.answerWaiters i) :=
  Core.foldl (fun _ _ hm => hm.answerWaiter i _) _ h

/-- The awaited fill of a slot ends on it. -/
theorem Core.completeFill (h : Core { k with awaited := some (.fill i) } s) (page : Nat) (offs : OffsetSet) :
    Core { k with awaited := none } (s.completeFill i page offs) := by
  have hpending := h.fill i List.mem_cons_self
  have hfree : (s.slot i).state ≠ .free := fun hs => hpending ((h.slot i).idle hs).1
  have hslot := State.slot_modSlot_same s i fun x => { x.land (fun k => s.chip.read page k) offs with fillPending := none }
  have hm : Core { k with awaited := none } (s.modSlot i fun x => { x.land (fun k => s.chip.read page k) offs with fillPending := none }) := by
    refine h.fillUpdate (a := none) (s.modSlot_update i rfl) (hslot ▸ (h.slot i).land hfree _ offs) (hslot ▸ .land (s.slot i) _ offs)
      (fun hn => (List.nodup_cons.1 hn).2) (fun r hr => .inl (List.mem_cons_of_mem _ hr)) fun hin => absurd hin (List.nodup_cons.1 h.nodup).1
  unfold State.completeFill
  dsimp only
  split
  · exact hm.answerWaiters i
  · exact (hm.answerWaiters i).touch i

/-! ### The read path and the write path -/

theorem State.requestFill_port (s : State) (i : SlotIx) (p : PortId) : (s.requestFill i).port p = s.port p := by
  unfold State.requestFill
  cases (s.slot i).fillPending with
  | some w => rfl
  | none => cases p <;> rfl

theorem State.requestFill_state (s : State) (i : SlotIx) : ((s.requestFill i).slot i).state = (s.slot i).state := by
  rw [State.requestFill_eq]
  exact (congrArg Slot.state (State.slot_setSlot_same s i _)).trans rfl

theorem Core.waitOnSlot (h : Core k s) (hp : k.loose p) (hacc : (s.port p).access = some acc) (hfree : (s.slot i).state ≠ .free) :
    Core (k.tight p) (s.waitOnSlot i p acc) := by
  obtain ⟨d, hd⟩ := State.enterWait_shape ((s.requestFill i).modSlot i fun x => x.setWait p (some acc.offsets)) p acc .waitFill (some i)
  unfold State.waitOnSlot
  rw [hd]
  exact (h.requestFill hfree).waitFill hp (by rw [State.requestFill_port, hacc]) (by rwa [State.requestFill_state]) d

theorem Core.readMiss (h : Core k s) (hp : k.loose p) (hacc : (s.port p).access = some acc) {found : Option SlotIx}
    (hfound : ∀ i ∈ found, (s.slot i).state ≠ .free) : Core (k.tight p) (s.readMiss p acc found) := by
  unfold State.readMiss
  split
  · exact h.answerError hp _ _
  · split
    · exact h.waitOnSlot hp hacc (hfound _ rfl)
    · split
      · rename_i i ha
        refine (h.allocate ha acc.page).waitOnSlot hp (by rw [(s.allocate_frame i acc.page).port, hacc]) ?_
        rw [State.slot_allocate_same]
        nofun
      · exact h.waitBypass hp acc

theorem Core.readPath (h : Core k s) (hp : k.loose p) (hacc : (s.port p).access = some acc) : Core (k.tight p) (s.readPath p acc) := by
  unfold State.readPath
  split
  · rename_i i hl
    split
    · exact (h.touch i).answer hp _
    · exact h.readMiss hp hacc fun j hj => Option.some.inj hj ▸ (State.lookup_carries hl).1
  · exact h.readMiss hp hacc nofun

/-- A write that has somewhere to go is answered. -/
theorem Core.writeInto (h : Core k s) (hp : k.loose p) (hacc : (s.port p).access = some acc) (hw : s.writable acc.page = true) :
    Core (k.tight p) (s.writeInto p acc) := by
  obtain ⟨⟨acc', hacc', hsize⟩, -, -⟩ := h.loose p hp
  obtain rfl : acc' = acc := Option.some.inj (hacc'.symm.trans hacc)
  unfold State.writeInto
  split
  · rename_i i hl
    exact (h.merge (State.lookup_carries hl).1 hsize).answer hp _
  · rename_i hl
    split
    · rename_i i ha
      refine ((h.allocate ha acc'.page).merge ?_ hsize).answer hp _
      rw [State.slot_allocate_same]
      nofun
    · rename_i ha
      rw [State.writable, hl, ha] at hw
      cases hw

theorem Core.writePath (h : Core k s) (hp : k.loose p) (hacc : (s.port p).access = some acc) : Core (k.tight p) (s.writePath p acc) := by
  unfold State.writePath
  split
  · exact h.writeInto hp hacc ‹_›
  · split
    · exact h.answerError hp _ _
    · exact h.waitSlot hp acc

theorem Core.serveWrite (h : Core k s) (hp : ¬k.loose p) : Core k (s.serveWrite p) := by
  unfold State.serveWrite
  split
  · rename_i acc hstate hacc
    cases hw : s.writable acc.page with
    | true => exact Ctx.tight_loosen hp ▸ (h.loosenWrite hp hstate).writeInto (.inr rfl) hacc hw
    | false =>
      obtain ⟨hl, ha⟩ : s.lookup acc.page = none ∧ s.allocatable = none := by simpa [State.writable] using hw
      unfold State.writeInto
      rw [hl, ha]
      exact h
  · exact h

theorem Core.serveWaiting (h : Core k s) (hk : ∀ p, ¬k.loose p) : Core k s.serveWaiting :=
  Core.foldl (fun _ p hm => hm.serveWrite (hk p)) _ h

/-- A port served anew is in its place, and the other is as it was. -/
theorem Core.serveAnew (h : Core k s) {reads : List PortId} (hp : k.loose p ↔ p ∈ reads) : Core (k.tight p) (State.serveAnew reads s p) := by
  unfold State.serveAnew
  by_cases hin : p ∈ reads
  · rw [if_pos (List.contains_iff_mem.2 hin)]
    obtain ⟨⟨acc, hacc, -⟩, -, -⟩ := h.loose p (hp.2 hin)
    rw [hacc]
    exact h.readPath (hp.2 hin) hacc
  · rw [if_neg fun hc => hin (List.contains_iff_mem.1 hc), Ctx.tight_of_not_loose fun hl => hin (hp.1 hl)]
    exact h.serveWrite fun hl => hin (hp.1 hl)

/-- Both ports served anew in their order. -/
theorem Core.serveRestarted (h : Core k s) {reads : List PortId} (hreads : ∀ p, k.loose p ↔ p ∈ reads) :
    Core { k with loose := fun _ => False } (s.serveRestarted reads) := by
  have hboth : ∀ p q, p ≠ q → Core { k with loose := fun _ => False } (State.serveAnew reads (State.serveAnew reads s p) q) := fun p q hpq => by
    have hnone : ((k.tight p).tight q).loose = fun _ => False := funext fun r => eq_false fun hr => by
      cases p <;> cases q <;> cases r <;> simp_all [Ctx.tight]
    have := (h.serveAnew (hreads p)).serveAnew (p := q) (reads := reads) ⟨fun hl => (hreads q).1 hl.1, fun hin => ⟨(hreads q).2 hin, hpq.symm⟩⟩
    rw [← hnone]
    exact this
  rw [State.serveRestarted_eq]
  unfold State.portsByArrival
  split
  · split
    · exact hboth .b .a nofun
    · exact hboth .a .b nofun
  · exact hboth .a .b nofun

end Sys2Proof.Machine

/-! PROOF. Withdrawals, refusals, the store's entries, and what the commands and the commit engine do to slots (R21, R22, R38, R64,
R68, R77, R81, R98, R143 to R150). -/

namespace Sys2Proof.Machine

variable {s u : State} {i j : SlotIx} {p q : PortId} {acc : Access} {x y : Slot} {k : Ctx}

/-! ### Withdrawals and refusals -/

theorem Core.refuseWaiter (h : Core k s) (i : SlotIx) (detail : Detail) (p : PortId) : Core k (s.refuseWaiter i detail p) := by
  unfold State.refuseWaiter
  split
  · rename_i hw
    obtain ⟨hp, -, hc⟩ := h.unwait (i := i) (p := p) (Option.isSome_iff_ne_none.1 hw)
    exact Ctx.tight_loosen hp ▸ hc.answerError (.inr rfl) _ _
  · exact h

/-- A port in WAIT_BYPASS whose read is withdrawn or dropped (R41, R98). -/
theorem Core.leaveBypass (h : Core k s) (hp : ¬k.loose p) (hstate : (s.port p).state = .waitBypass) {a : Option Request} {l : List Request}
    (hsub : List.Sublist (a.toList ++ l) (s.wanted k.awaited)) (hnot : .bypass p ∉ a.toList ++ l) :
    Core { k.loosen p with awaited := a } { s with requests := l } := by
  obtain ⟨⟨haccess, -, hwaited⟩, hsize, hwait, -⟩ := h.port p hp
  refine h.portUpdate (p := p) (a := a) ?_ (fun q hq => ⟨fun hl => hl.resolve_right hq.symm, .inl⟩) (fun hl => absurd (.inr rfl) hl)
    fun _ => ⟨?_, fun j => ?_, hnot⟩
  · exact { slot := fun j => (Slot.setWait_wait _ p).symm, free := fun _ _ => .inr rfl, other := fun q _ => by cases q <;> rfl, coll := id
            nodup := fun hn => hn.sublist hsub, wanted := fun r hr => .inl (hsub.subset hr) }
  · obtain ⟨acc, hacc⟩ := Option.ne_none_iff_exists'.1 fun hn => by
      have := haccess.1 hn
      rw [hstate] at this
      cases this
    exact ⟨acc, (by cases p <;> exact hacc), fun h3 => hsize (by rw [hacc, Option.map_some, h3])⟩
  · refine (hwait j).trans ?_
    rw [hwaited.2 (by rw [hstate]; nofun)]
    exact if_neg nofun

theorem Core.withdrawRequest (h : Core k s) (hk : ∀ p, ¬k.loose p) {r : Request} (hr : r ∈ s.requests) (detail : Detail) :
    Core k (State.withdrawRequest detail s r) := by
  obtain ⟨-, hnodup, hdisjoint⟩ := List.nodup_append.1 h.nodup
  have hne : ∀ a ∈ k.awaited, a ≠ r := fun a ha => hdisjoint a (Option.mem_toList.2 ha) r hr
  cases r with
  | fill i =>
    exact (((h.withdrawFill fun ha => hne _ ha rfl).refuseWaiter i detail .a).refuseWaiter i detail .b).releaseIfEmpty i
  | bypass p =>
    have hstate := (h.port p (hk p)).bypass (List.mem_append_right _ hr)
    have hm := h.leaveBypass (hk p) hstate (a := k.awaited) (l := s.requests.erase (.bypass p)) (List.Sublist.append_left List.erase_sublist _)
      fun hin => (List.mem_append.1 hin).elim (fun ha => hne _ (Option.mem_toList.1 ha) rfl) fun hin => hnodup.not_mem_erase hin
    exact Ctx.tight_loosen (hk p) ▸ hm.answerError (.inr rfl) _ _

theorem State.withdrawRequest_requests (s : State) (r : Request) (detail : Detail) :
    (State.withdrawRequest detail s r).requests = s.requests.erase r := by
  cases r with
  | fill i =>
    rw [State.withdrawRequest_fill, (State.releaseIfEmpty_frame _ i).requests]
    rfl
  | bypass p =>
    rw [State.withdrawRequest_bypass]
    cases p <;> rfl

theorem Core.withdrawAll (h : Core k s) (hk : ∀ p, ¬k.loose p) (detail : Detail) : Core k (s.withdrawAll detail) := by
  have hfold : ∀ (l : List Request) (m : State), m.requests = l → Core k m → Core k (l.foldl (State.withdrawRequest detail) m) := by
    intro l
    induction l with
    | nil => exact fun m _ hm => hm
    | cons r rest ih =>
      intro m hm hc
      refine ih _ ?_ (hc.withdrawRequest hk (by rw [hm]; exact List.mem_cons_self) detail)
      rw [State.withdrawRequest_requests, hm, List.erase_cons_head]
  exact hfold _ s rfl h

theorem Core.refuseWrite (h : Core k s) (hp : ¬k.loose p) (reason : Reason) (detail : Detail) : Core k (State.refuseWrite reason detail s p) := by
  unfold State.refuseWrite
  split
  · exact Ctx.tight_loosen hp ▸ (h.loosenWrite hp ‹_›).answerError (.inr rfl) _ _
  · exact h

theorem Core.refuseWrites (h : Core k s) (hk : ∀ p, ¬k.loose p) (reason : Reason) (detail : Detail) : Core k (s.refuseWrites reason detail) :=
  Core.foldl (fun _ p hm => hm.refuseWrite (hk p) _ _) _ h

theorem insertRequest_perm (r : Request) (l : List Request) : (insertRequest r l).Perm (r :: l) := by
  induction l with
  | nil => exact .refl _
  | cons q rest ih =>
    unfold insertRequest
    split
    · exact .refl _
    · exact (ih.cons q).trans (.swap r q rest)

theorem Core.orderRequests (h : Core k s) (n : Nat) : Core k (s.orderRequests n) := by
  have hsort : ∀ l : List Request, (l.foldr insertRequest []).Perm l := fun l => by
    induction l with
    | nil => exact .refl _
    | cons r rest ih => exact (insertRequest_perm r _).trans (ih.cons r)
  have hperm : ((s.orderRequests n).wanted k.awaited).Perm (s.wanted k.awaited) :=
    .append_left _ ((List.Perm.append_left _ (hsort _)).trans (.of_eq (List.take_append_drop n _)))
  have hport : ∀ q, (s.orderRequests n).port q = s.port q := fun q => by cases q <;> rfl
  refine ⟨h.coll, h.queued, h.slot, h.committing, h.held, hperm.nodup_iff.2 h.nodup, fun i hi => h.fill i (hperm.subset hi), fun p hp => ?_,
    fun p hp => ?_⟩
  · obtain ⟨hf, hs, hw, hb⟩ := h.port p hp
    exact ⟨by rwa [hport], by rwa [hport], fun j => by rw [hport]; exact hw j, fun hin => by rw [hport]; exact hb (hperm.subset hin)⟩
  · obtain ⟨ha, hw, hb⟩ := h.loose p hp
    exact ⟨by rwa [hport], hw, fun hin => hb (hperm.subset hin)⟩

/-! ### The store's entries -/

theorem Core.endLong (h : Core k s) (long : LongCommand) : Core k (s.endLong long) := by
  unfold State.endLong
  split
  · exact h.congr
  · exact h

theorem State.modSlot_state (s : State) (i : SlotIx) {f : Slot → Slot} (hf : ∀ x, (f x).state = x.state) (j : SlotIx) :
    ((s.modSlot i f).slot j).state = (s.slot j).state := by
  by_cases hj : i = j
  · subst hj
    rw [State.slot_modSlot_same, hf]
  · rw [State.slot_modSlot_ne _ _ hj]

theorem State.freshDeadlines_state (s : State) (i j : SlotIx) : ((s.freshDeadlines i).slot j).state = (s.slot j).state := by
  unfold State.freshDeadlines
  refine s.modSlot_state i (fun x => ?_) j
  rfl

theorem Core.freshDeadlines (h : Core k s) (hdirty : (s.slot i).state = .dirty) : Core k (s.freshDeadlines i) :=
  h.modDeadlines _ rfl (.inl hdirty)

theorem Core.enterRunning (h : Core k s) : Core k s.enterRunning := by
  have hm : Core k { s with store :=
      { s.store with state := .running, cause := none, origin := none, phase := none, holdDeadline := none } } := h.congr
  have hdirty : ∀ i ∈ s.ageList, (s.slot i).state = .dirty := fun i hi => (h.coll.2.2.1.2 i).1 hi
  have hd := List.foldlRecOn s.ageList State.freshDeadlines (motive := fun m => Core k m ∧ ∀ i, (m.slot i).state = (s.slot i).state) ⟨hm,
    fun _ => rfl⟩
    fun m hcm i hi => by
      obtain ⟨hc, hs⟩ := hcm
      exact ⟨hc.freshDeadlines ((hs i).trans (hdirty i hi)), fun j =>
        (m.freshDeadlines_state i j).trans (hs j)⟩
  exact (Core.foldl (fun _ _ hc => hc.fullPage _) _ hd.1).highWater

theorem Core.enterDegraded (h : Core k s) (hk : ∀ p, ¬k.loose p) (cause : Cause) : Core k (s.enterDegraded cause) := by
  have hm : Core k { s with store :=
      { s.store with state := .degraded, cause := some cause, origin := none, phase := none, holdDeadline := none } } := h.congr
  have hn := (hm.clearDeadlines.refuseWrites hk .storeFull .degraded).endLong .quiesce
  unfold State.enterDegraded
  cases cause with
  | arrayTimeout => exact hn.withdrawAll hk _
  | mapInvalid => exact hn
  | mapWriteFail => exact hn

theorem Core.enterQuiesced (h : Core k s) (hk : ∀ p, ¬k.loose p) : Core k s.enterQuiesced := by
  have hm : Core k { s with store := { s.store with state := .quiesced } } := h.congr
  have hn := (((hm.withdrawAll hk .quiesced).serveWaiting hk).refuseWrites hk .storeFull .quiesced).endLong .quiesce
  have hrelease : ∀ n, Core k n → Core k (if n.owner = .none then n.releasePort else n) := fun n hn => by
    split
    · exact hn.congr
    · exact hn
  exact hrelease _ hn

theorem Core.drainCheck (h : Core k s) (hk : ∀ p, ¬k.loose p) : Core k s.drainCheck := by
  unfold State.drainCheck
  split
  · exact h.enterQuiesced hk
  · exact h

theorem Core.tryHold (h : Core k s) : Core k s.tryHold := by
  unfold State.tryHold
  split
  · exact h.congr
  · exact h

/-! ### RETRY, DISCARD, RESUME -/

theorem Core.doRetry (h : Core k s) : Core k s.doRetry := by
  have hfold : ∀ (l : List SlotIx) (m : State), l.Nodup → (∀ i ∈ l, (m.slot i).state = .pinned) → Core k m →
      Core k (l.foldl (fun m i => m.moveTo i .sealed) m) := by
    intro l
    induction l with
    | nil => exact fun m _ _ hm => hm
    | cons i rest ih =>
      intro m hn hp hm
      obtain ⟨hi, hrest⟩ := List.nodup_cons.1 hn
      have hpin := hp i List.mem_cons_self
      obtain ⟨⟨-, -, -, hne⟩, -, -⟩ := hm.slot i
      refine ih _ hrest (fun j hj => ?_) (hm.moveTo (by rw [hpin]; nofun) (by rw [hpin]; nofun) (by rw [hpin]; nofun) ⟨nofun, nofun⟩ nofun
        fun _ => hne (.inr (.inr hpin)))
      rw [State.slot_moveTo_ne _ _ (ne_of_mem_of_not_mem hj hi).symm]
      exact hp j (List.mem_cons_of_mem i hj)
  have hpinned : s.retrySeals.pinned = s.pinned := by rw [State.retrySeals_eq h.coll.2.2.1, State.pinned_sealedTo]
  have hr := h.retrySeals
  refine (hfold s.pinned s.retrySeals (hpinned ▸ hr.coll.2.2.2.2.1) (fun i hi => (hr.coll.2.2.2.2.2 i).1 (hpinned ▸ hi)) hr).congr

/-- A granted read is dropped: nobody awaits it any more (R98). -/
theorem Core.drop (h : Core k s) : Core { k with awaited := none } s :=
  h.fillUpdate (i := 0) ⟨fun _ _ => rfl, fun _ => rfl, id, id⟩ (h.slot 0) {} (fun hn => (List.nodup_append.1 hn).2.1)
    (fun _ hr => .inl (List.mem_append_right _ hr)) fun hin => h.fill 0 (List.mem_append_right _ hin)

theorem Slot.Ok.invalidate (h : x.Ok) (hfree : x.state ≠ .free) : x.invalidate.Ok := by
  obtain ⟨⟨hsub, -, hclean, hne⟩, hfields, -⟩ := h
  refine ⟨⟨?_, fun hs => absurd hs hfree, hclean, hne⟩, hfields, fun hs => absurd hs hfree⟩
  refine inter_eq_left_iff.2 fun n hn => ?_
  show (x.present &&& x.dirty).getLsbD n = true
  rw [BitVec.getLsbD_and, inter_eq_left_iff.1 hsub n hn, Bool.true_and]
  exact hn

theorem Core.invalidateSlot (h : Core k s) (hk : k.commit = none) (i : SlotIx) : Core k (s.invalidateSlot i) := by
  unfold State.invalidateSlot
  split
  · exact h
  · rename_i hfree
    have hnot : (s.slot i).state ≠ .committing := fun hs => by
      have := (h.committing i).1 hs
      rw [hk] at this
      cases this
    exact (h.modSlot Slot.invalidate rfl ((h.slot i).invalidate hfree) (.of_not_committing (fun p => by cases p <;> rfl) hnot hnot)).releaseIfEmpty i

/-! ### DISCARD -/

/-- The request of a granted read whose result is awaited. -/
def State.awaited (s : State) : Option Request :=
  match s.reading with
  | none => none
  | some g =>
    if g.dropped then none
    else
      match g.kind with
      | .fill i => some (.fill i)
      | .bypass p => some (.bypass p)
      | .mapRead => none

theorem OnlyAccess.keeps {α : Type} {f : State → α} (h : OnlyAccess s u)
    (hf : ∀ m : State, f { m with slots := u.slots, freeList := u.freeList, recency := u.recency, ageList := u.ageList
                                  pinned := u.pinned, queue := u.queue, portA := u.portA, portB := u.portB
                                  requests := u.requests } = f m) : f u = f s :=
  (congrArg f h).trans (hf s)

theorem State.awaited_dropReading (s : State) : s.dropReading.awaited = none := by
  unfold State.awaited State.dropReading
  cases s.reading <;> rfl

/-- The ports that wait on a slot lose their place there. -/
def Ctx.unwait (k : Ctx) (x : Slot) : Ctx := { k with loose := fun p => k.loose p ∨ x.wait p ≠ none }

theorem Core.unwaitPort (h : Core k s) (i : SlotIx) (p : PortId) :
    Core { k with loose := fun q => k.loose q ∨ q = p ∧ (s.slot i).wait p ≠ none } (s.modSlot i fun x => x.setWait p none) := by
  by_cases hw : (s.slot i).wait p = none
  · have hsame : (s.modSlot i fun x => x.setWait p none) = s := by
      rw [State.modSlot_eq, Slot.setWait_none hw, State.setSlot_slot]
    have hloose : (fun q => k.loose q ∨ q = p ∧ (s.slot i).wait p ≠ none) = k.loose := funext fun q => propext (or_iff_left fun hq => hq.2 hw)
    rw [hsame, hloose]
    exact h
  · have hloose : (fun q => k.loose q ∨ q = p ∧ (s.slot i).wait p ≠ none) = (k.loosen p).loose := funext fun q =>
      propext (or_congr_right (and_iff_left hw))
    rw [hloose]
    exact (h.unwait hw).2.2

theorem Core.unwaitAll (h : Core k s) (i : SlotIx) :
    Core (k.unwait (s.slot i)) (s.modSlot i fun x => { x with waitA := none, waitB := none }) := by
  have hb := (h.unwaitPort i .a).unwaitPort i .b
  have hslot : ((s.modSlot i fun x => x.setWait .a none).slot i).wait .b = (s.slot i).wait .b := by
    rw [State.slot_modSlot_same]
    rfl
  rw [hslot, State.modSlot_modSlot] at hb
  rw [State.modSlot_eq]
  have hloose : (k.unwait (s.slot i)).loose = fun q => (k.loose q ∨ q = .a ∧ (s.slot i).wait .a ≠ none) ∨ q = .b ∧ (s.slot i).wait .b ≠ none :=
    funext fun q => by cases q <;> simp [Ctx.unwait]
  unfold Ctx.unwait at hloose ⊢
  dsimp only at hloose
  rw [hloose]
  exact hb

/-- A PINNED slot freed with the ports that wait on it; its fill was withdrawn before. -/
theorem Core.freeWaited (h : Core k s) (hpin : (s.slot i).state = .pinned) (hfill : (s.slot i).fillPending = none) :
    Core (k.unwait (s.slot i)) (s.freeSlot i) := by
  have hm := h.unwaitAll i
  have hslot : (s.modSlot i fun x => { x with waitA := none, waitB := none }).slot i = { s.slot i with waitA := none, waitB := none } :=
    State.slot_modSlot_same s i _
  have hfreed := hm.freeSlot (i := i) (.inr (by rw [hslot]; exact hpin)) (by rw [hslot]; exact ⟨hfill, rfl, rfl⟩)
  have hsame : (s.modSlot i fun x => { x with waitA := none, waitB := none }).freeSlot i = s.freeSlot i := by
    rw [State.freeSlot_of_pinned hpin, State.freeSlot_of_pinned (by rw [hslot]; exact hpin), hslot]
    simp [State.modSlot, State.setSlot, Vector.set_set, Slot.emptied]
  exact hsame ▸ hfreed

/-- What a PINNED slot discarded leaves: its ports without a place, and a granted fill of it dropped. -/
theorem Core.discardSlot (h : Core { k with awaited := s.awaited } s) (hpin : (s.slot i).state = .pinned)
    (howner : s.awaited = some (.fill i) → s.owner = .fill i) :
    Core ({ k with awaited := (s.discardSlot i).awaited }.unwait (s.slot i)) (s.discardSlot i) := by
  have hfinish : ∀ d : State, Core { k with awaited := d.awaited } d → d.awaited ≠ some (.fill i) → d.slot i = s.slot i →
      Core ({ k with awaited := d.awaited }.unwait (s.slot i)) ((d.withdrawFill i).freeSlot i) := fun d hd hne hslot => by
    have hw : (d.withdrawFill i).slot i = { s.slot i with fillPending := none } := by
      rw [← hslot]
      exact State.slot_modSlot_same d i fun x => { x with fillPending := none }
    have hf := (hd.withdrawFill hne).freeWaited (i := i) (by rw [hw]; exact hpin) (by rw [hw])
    have hwait : ((d.withdrawFill i).slot i).wait = (s.slot i).wait := by
      rw [hw]
      exact funext fun p => by cases p <;> rfl
    unfold Ctx.unwait at hf ⊢
    rwa [hwait] at hf
  have hawaited : ∀ d : State, ((d.withdrawFill i).freeSlot i).awaited = d.awaited := fun d =>
    ((d.withdrawFill_frame i).trans (State.freeSlot_frame _ i).toOnlyAccess).keeps (f := State.awaited) fun _ => rfl
  unfold State.discardSlot
  dsimp only
  rw [hawaited]
  split
  · rename_i ho
    refine hfinish _ ?_ (by rw [State.awaited_dropReading]; nofun) rfl
    rw [State.awaited_dropReading]
    exact h.drop.congr
  · rename_i ho
    exact hfinish _ h.congr (fun hf => ho (howner hf)) rfl

end Sys2Proof.Machine

/-! PROOF. Slots discarded one after the other, stall expiry, a cleared slot store, and the slot of a commit (R22, R24, R40, R41, R68,
R77, R81, R109, R157). -/

namespace Sys2Proof.Machine

variable {s u : State} {i j : SlotIx} {p q : PortId} {acc : Access} {x y : Slot} {k : Ctx}

/-- A slot discarded leaves the owner, the other slots, and of the awaited reads at most its own is dropped. -/
theorem State.discardSlot_rest (hpin : (s.slot i).state = .pinned) : (∀ j, i ≠ j → (s.discardSlot i).slot j = s.slot j) ∧
    (s.discardSlot i).owner = s.owner ∧ ((s.discardSlot i).awaited = s.awaited ∨ (s.discardSlot i).awaited = none) := by
  have heq := State.discardSlot_eq hpin
  refine ⟨fun j hj => ?_, ?_, ?_⟩
  · rw [heq]
    exact State.slot_setSlot_ne s _ hj
  · rw [heq]
  · rw [heq]
    unfold State.awaited
    dsimp only
    by_cases ho : s.owner = .fill i
    · rw [if_pos ho]
      right
      cases s.reading <;> rfl
    · rw [if_neg ho]
      exact .inl rfl

theorem Core.discards {l : List SlotIx} (h : Core { k with awaited := s.awaited } s) (hl : l.Nodup)
    (hp : ∀ i ∈ l, (s.slot i).state = .pinned) (howner : ∀ i, s.awaited = some (.fill i) → s.owner = .fill i) :
    Core { k with awaited := (l.foldl State.discardSlot s).awaited, loose := fun p => k.loose p ∨ ∃ i ∈ l, (s.slot i).wait p ≠ none }
      (l.foldl State.discardSlot s) := by
  induction l generalizing s k with
  | nil =>
    have hloose : (fun p => k.loose p ∨ ∃ i ∈ ([] : List SlotIx), (s.slot i).wait p ≠ none) = k.loose := funext fun p => propext (by simp)
    rw [hloose]
    exact h
  | cons i rest ih =>
    obtain ⟨hi, hrest⟩ := List.nodup_cons.1 hl
    have hpin := hp i List.mem_cons_self
    obtain ⟨hslot, hown, hawaited⟩ := State.discardSlot_rest hpin
    have hsame : ∀ j ∈ rest, (s.discardSlot i).slot j = s.slot j := fun j hj => hslot j (ne_of_mem_of_not_mem hj hi).symm
    have hnext := ih (k := k.unwait (s.slot i)) (h.discardSlot hpin (howner i)) hrest
      (fun j hj => by rw [hsame j hj]; exact hp j (List.mem_cons_of_mem i hj)) fun j hj => hown.trans (howner j (by
        rcases hawaited with ha | ha
        · rw [← ha, hj]
        · rw [ha] at hj
          cases hj))
    have hloose : (fun p => (k.unwait (s.slot i)).loose p ∨ ∃ j ∈ rest, ((s.discardSlot i).slot j).wait p ≠ none) =
        fun p => k.loose p ∨ ∃ j ∈ i :: rest, (s.slot j).wait p ≠ none := funext fun p => propext (by
      rw [exists_mem_cons_iff]
      refine or_assoc.trans (or_congr_right (or_congr_right (exists_congr fun j => and_congr_right fun hj => ?_)))
      rw [hsame j hj])
    rw [hloose] at hnext
    exact hnext

/-! ### Stall expiry -/

theorem Core.expireFill (h : Core k s) (hp : ¬k.loose p) (hwaited : (s.port p).waited = some i) (hacc : (s.port p).access ≠ none) :
    Core k (s.expireFill p i) := by
  have hw : (s.slot i).wait p ≠ none := by
    rw [(h.port p hp).wait i, if_pos hwaited]
    exact fun hn => hacc (Option.map_eq_none_iff.1 hn)
  obtain ⟨-, -, hm⟩ := h.unwait hw
  have hk : ∀ m, Core (k.loosen p) m → Core k (m.answerError p .stallExpired .fill) := fun m hm =>
    Ctx.tight_loosen hp ▸ hm.answerError (.inr rfl) _ _
  refine hk _ ?_
  split
  · rename_i hcond
    refine (hm.withdrawFill fun ha => ?_).releaseIfEmpty i
    have hnodup := (List.nodup_append.1 h.nodup).2.2
    exact hnodup _ (Option.mem_toList.2 ha) _ (List.contains_iff_mem.1 hcond.2) rfl
  · exact hm

theorem Core.expireBypass (h : Core { k with awaited := s.awaited } s) (hp : ¬k.loose p) (hstate : (s.port p).state = .waitBypass)
    (howner : s.awaited = some (.bypass p) → s.owner = .bypass p) : Core { k with awaited := (s.expireBypass p).awaited } (s.expireBypass p) := by
  obtain ⟨-, hnodup, hdisjoint⟩ := List.nodup_append.1 h.nodup
  have hk : ∀ m : State, Core { k.loosen p with awaited := m.awaited } m →
      Core { k with awaited := (m.answerError p .stallExpired .bypass).awaited } (m.answerError p .stallExpired .bypass) := fun m hm => by
    rw [(m.answerError_frame p _ _).keeps (f := State.awaited) fun _ => rfl]
    have : Core ((({ k with awaited := m.awaited } : Ctx).loosen p).tight p) (m.answerError p .stallExpired .bypass) :=
      hm.answerError (p := p) (.inr rfl) .stallExpired .bypass
    rwa [Ctx.tight_loosen (k := { k with awaited := m.awaited }) hp] at this
  refine hk _ ?_
  split
  · rename_i hin
    exact h.leaveBypass hp hstate (a := s.awaited) (List.Sublist.append_left List.erase_sublist _) fun hmem =>
      (List.mem_append.1 hmem).elim (fun ha => hdisjoint _ ha _ (List.contains_iff_mem.1 hin) rfl) hnodup.not_mem_erase
  · rename_i hin
    have hnot : .bypass p ∉ s.requests := fun hmem => hin (List.contains_iff_mem.2 hmem)
    split
    · rw [State.awaited_dropReading]
      exact (h.leaveBypass hp hstate (a := none) (l := s.requests) (List.sublist_append_right _ _) hnot).congr
    · rename_i ho
      exact h.leaveBypass hp hstate (a := s.awaited) (l := s.requests) (List.Sublist.refl _) fun hmem =>
        (List.mem_append.1 hmem).elim (fun ha => ho (howner (Option.mem_toList.1 ha))) hnot

/-! ### The slot store cleared -/

/-- Every slot FREE and empty, every collection with it, and no request. -/
structure State.Emptied (u : State) : Prop where
  slots : u.slots = Vector.replicate 32 Slot.reset
  freeList : u.freeList = allSlots
  recency : u.recency = []
  ageList : u.ageList = []
  pinned : u.pinned = []
  queue : u.queue = []
  requests : u.requests = []

theorem State.Emptied.slot (h : u.Emptied) (i : SlotIx) : u.slot i = Slot.reset := by
  unfold State.slot
  rw [h.slots]
  exact Vector.getElem_replicate _

theorem State.Emptied.core (h : u.Emptied) {L : PortId → Prop} (hport : ∀ p, ¬L p → (u.port p).fieldsOk ∧
    (u.port p).access.map Access.size ≠ some 3 ∧ (u.port p).waited = none)
    (hloose : ∀ p, L p → ∃ acc, (u.port p).access = some acc ∧ acc.size ≠ 3) :
    Core { awaited := none, commit := none, queued := False, loose := L } u := by
  have hwait : ∀ p i, (u.slot i).wait p = none := fun p i => by rw [h.slot]; cases p <;> rfl
  have hwanted : ∀ r, r ∉ u.wanted none := fun r hr => by
    unfold State.wanted at hr
    rw [h.requests] at hr
    exact absurd hr (by simp)
  refine ⟨?_, False.elim, fun i => ?_, fun i => ?_, nofun, ?_, fun i hi => absurd hi (hwanted _), fun p hp => ?_, fun p hp => ?_⟩
  · exact State.collectionsOk_congr State.reset_collectionsOk (fun i => by rw [h.slot, State.slot_reset])
      fun
        | .free => h.freeList
        | .clean => h.recency
        | .dirty => h.ageList
        | .sealed => h.queue
        | .committing => rfl
        | .pinned => h.pinned
  · rw [h.slot]
    exact Slot.Ok.reset
  · rw [h.slot]
    exact iff_of_false nofun nofun
  · show ([] ++ u.requests).Nodup
    rw [h.requests]
    exact List.nodup_nil
  · obtain ⟨hf, hs, hw⟩ := hport p hp
    exact .unknown hf hs hw (hwait p) fun hin => absurd hin (hwanted _)
  · exact ⟨hloose p hp, hwait p, hwanted _⟩

/-! ### The slot of a commit -/

/-- The COMMITTING slot takes another state, and no commit is in flight (R77, R81). -/
theorem Core.endCommitting (h : Core k s) (hc : k.commit.map Held.slot = some i) (hu : SlotUpdate i s u) (hrequests : u.requests = s.requests)
    (hok : (u.slot i).Ok) (hstate : (u.slot i).state ≠ .committing) (hwait : ∀ p, (u.slot i).wait p = (s.slot i).wait p)
    (hfill : (u.slot i).fillPending = (s.slot i).fillPending) : Core { k with commit := none } u := by
  have hwaits : ∀ p j, (u.slot j).wait p = (s.slot j).wait p := fun p j => by
    by_cases hj : i = j
    · exact hj ▸ hwait p
    · rw [hu.other j hj]
  have hwanted : u.wanted k.awaited = s.wanted k.awaited := by
    unfold State.wanted
    rw [hrequests]
  refine ⟨hu.coll h.coll, fun hq => hu.queue (h.queued hq), fun j => ?_, fun j => ?_, nofun, hwanted ▸ h.nodup, fun j hj => ?_,
    fun p hp => ?_, fun p hp => ?_⟩
  · by_cases hj : i = j
    · exact hj ▸ hok
    · rw [hu.other j hj]
      exact h.slot j
  · refine iff_of_false (fun hs => ?_) nofun
    by_cases hj : i = j
    · exact hstate (hj ▸ hs)
    · rw [hu.other j hj] at hs
      exact hj (Option.some.inj (hc.symm.trans ((h.committing j).1 hs)))
  · have := h.fill j (hwanted ▸ hj)
    by_cases hij : i = j
    · subst hij
      rwa [hfill]
    · rwa [hu.other j hij]
  · obtain ⟨hf, hs, hw, hb⟩ := h.port p hp
    exact ⟨by rwa [hu.port], by rwa [hu.port], fun j => by rw [hwaits, hu.port]; exact hw j, fun hin => by rw [hu.port]; exact hb (hwanted ▸ hin)⟩
  · obtain ⟨ha, hw, hb⟩ := h.loose p hp
    exact ⟨by rwa [hu.port], fun j => (hwaits p j).trans (hw j), fun hin => hb (hwanted ▸ hin)⟩

theorem Core.committing_state (h : Core k s) (hc : k.commit.map Held.slot = some i) : (s.slot i).state = .committing := (h.committing i).2 hc

theorem Core.leaveCommitting (h : Core k s) (hc : k.commit.map Held.slot = some i) : Core { k with commit := none } (s.leaveCommitting i) := by
  have hstate := h.committing_state hc
  have hmove : ∀ st, st ≠ .free ∧ st ≠ .committing → (st = .clean → (s.slot i).dirty = 0) →
      (st = .dirty ∨ st = .sealed ∨ st = .pinned → (s.slot i).dirty ≠ 0) → Core { k with commit := none } (s.moveTo i st) :=
        fun st hst hclean hdirty => by
    refine h.endCommitting hc (s.moveTo_update i st (by rw [hstate]; nofun)) (s.moveTo_frame i st).requests ?_ ?_ (fun p => ?_) ?_
    · rw [State.slot_moveTo_same]
      exact (h.slot i).become (by rw [hstate]; nofun) hst.1 hclean hdirty
    · rw [State.slot_moveTo_same, Slot.become_state]
      exact hst.2
    · rw [State.slot_moveTo_same]
      cases p <;> simp [Slot.wait]
    · rw [State.slot_moveTo_same, Slot.become_fillPending]
  unfold State.leaveCommitting
  split
  · exact hmove .clean ⟨nofun, nofun⟩ (fun _ => ‹_›) (by rintro (hd | hd | hd) <;> cases hd)
  · exact ((((hmove .dirty ⟨nofun, nofun⟩ nofun fun _ => ‹_›).giveDeadlines (by rw [State.slot_moveTo_same, Slot.become_state])).fullPage i).pfwSeal
      i).highWater

/-- The COMMITTING slot becomes PINNED with bytes that it holds (R81). -/
theorem Core.pin (h : Core k s) (hc : k.commit.map Held.slot = some i) {add : OffsetSet} (hadd : add ≠ 0)
    (hsub : add &&& (s.slot i).present = add) : Core { k with commit := none } (s.pin i add) := by
  have hstate := h.committing_state hc
  have hslot : (s.modSlot i fun x => x.addBack add s.now).slot i = (s.slot i).addBack add s.now := State.slot_modSlot_same s i _
  have hpin : (s.pin i add).slot i = ((s.slot i).addBack add s.now).become .pinned := by
    unfold State.pin
    rw [State.slot_moveTo_same, hslot]
  obtain ⟨⟨hdirty, -, -, -⟩, ⟨hpage, hsince, hdl⟩, -⟩ := h.slot i
  refine h.endCommitting hc ((s.modSlot_update i rfl).trans (State.moveTo_update _ i .pinned (by rw [hslot, Slot.addBack_state, hstate]; nofun)))
    (s.pin_frame i add).requests ?_ ?_ (fun p => ?_) ?_
  · rw [hpin]
    refine ⟨⟨?_, nofun, nofun, fun _ => union_ne_zero_right hadd _⟩, ⟨iff_of_false (fun hp => ?_) nofun, dirtySince_iff hsince hadd s.now,
      fun _ => ⟨rfl, rfl⟩⟩, nofun⟩
    · refine inter_eq_left_iff.2 fun n hn => ?_
      simp only [Slot.become_dirty, Slot.become_present, Slot.addBack_dirty, Slot.addBack_present, BitVec.getLsbD_or, Bool.or_eq_true] at hn ⊢
      exact hn.elim (inter_eq_left_iff.1 hdirty n) (inter_eq_left_iff.1 hsub n)
    · rw [Slot.become_page, Slot.addBack_page, hpage, hstate] at hp
      cases hp
  · rw [hpin, Slot.become_state]
    nofun
  · rw [hpin]
    cases p <;> rfl
  · rw [hpin]
    rfl

/-- The spare snapshot empties the dirty set of the COMMITTING slot (R109). -/
theorem Core.clearDirty (h : Core k s) (hc : k.commit.map Held.slot = some i) :
    Core k (s.modSlot i fun x => { x with dirty := 0, dirtySince := none }) := by
  have hstate := h.committing_state hc
  obtain ⟨-, ⟨hpage, -, hdl⟩, -⟩ := h.slot i
  refine h.modSlot (fun x => { x with dirty := 0, dirtySince := none }) rfl
    ⟨⟨BitVec.zero_and, fun hs => ?_, fun _ => rfl, fun hs => ?_⟩, ⟨hpage, iff_of_true rfl rfl, hdl⟩, fun hs => ?_⟩ {}
  · exact nomatch hs.symm.trans hstate
  · rcases hs with hs | hs | hs <;> exact nomatch hs.symm.trans hstate
  · exact nomatch hs.symm.trans hstate

/-- The queue's head becomes COMMITTING, its dirty bytes the snapshot (R68). -/
theorem Core.beginCommitting (h : Core k s) (hk : k.commit = none) {later : List SlotIx} (hqueue : s.queue = i :: later) :
    ∃ page, (s.slot i).page = some page ∧ (s.slot i).dirty ≠ 0 ∧
      Core { k with commit := some ⟨i, page, (s.slot i).dirty⟩, queued := False }
        ((s.moveTo i .committing).modSlot i fun x => { x with dirty := 0, dirtySince := none }) := by
  have hstate : (s.slot i).state = .sealed := (h.coll.2.2.2.1.2 i).1 (by rw [hqueue]; exact List.mem_cons_self)
  obtain ⟨⟨hsub, -, -, hne⟩, ⟨hpage, -, -⟩, -⟩ := h.slot i
  have hdirty := hne (.inr (.inl hstate))
  obtain ⟨page, hp⟩ := Option.ne_none_iff_exists'.1 fun hn => by
    have := hpage.1 hn
    rw [hstate] at this
    cases this
  let m := (s.moveTo i .committing).modSlot i fun x => { x with dirty := 0, dirtySince := none }
  have hslot : m.slot i = { (s.slot i).become .committing with dirty := 0, dirtySince := none } := by
    rw [State.slot_modSlot_same, State.slot_moveTo_same]
  have hother : ∀ j, i ≠ j → m.slot j = s.slot j := fun j hj => (State.slot_modSlot_ne _ _ hj).trans (State.slot_moveTo_ne s _ hj)
  have hport : ∀ p, m.port p = s.port p := fun p => ((s.moveTo_frame i .committing).trans (State.modSlot_frame _ i _)).port p
  have hwaits : ∀ p j, (m.slot j).wait p = (s.slot j).wait p := fun p j => by
    by_cases hj : i = j
    · subst hj
      rw [hslot]
      cases p <;> rfl
    · rw [hother j hj]
  have hwanted : m.wanted k.awaited = s.wanted k.awaited := by
    unfold State.wanted
    rw [((s.moveTo_frame i .committing).trans (State.modSlot_frame _ i _)).requests]
  refine ⟨page, hp, hdirty, State.modSlot_collectionsOk (State.moveTo_collectionsOk h.coll i .committing) i rfl, False.elim, fun j => ?_, fun j => ?_,
    fun c hc => ?_, hwanted ▸ h.nodup, fun j hj => ?_, fun q hq => ?_, fun q hq => ?_⟩
  · by_cases hj : i = j
    · subst hj
      refine hslot ▸ ⟨⟨BitVec.zero_and, nofun, fun _ => rfl, fun hs => ?_⟩, ⟨iff_of_false (fun hn => ?_) nofun, iff_of_true rfl rfl,
        fun _ => ⟨rfl, rfl⟩⟩, nofun⟩
      · rcases hs with hs | hs | hs <;> cases hs
      · exact nomatch hp.symm.trans hn
    · exact hother j hj ▸ h.slot j
  · by_cases hj : i = j
    · subst hj
      exact iff_of_true (congrArg Slot.state hslot) rfl
    · refine iff_of_false (fun hs => ?_) fun hs => hj (Option.some.inj hs)
      have := (h.committing j).1 (by rw [← hother j hj]; exact hs)
      rw [hk] at this
      cases this
  · obtain rfl := Option.some.inj hc
    have hpresent : (m.slot i).present = (s.slot i).present := by
      rw [hslot]
      exact Slot.become_present _ _
    have hmpage : (m.slot i).page = some page := by
      rw [hslot]
      exact (Slot.become_page _ _).trans hp
    refine ⟨hmpage, hdirty, ?_⟩
    show (s.slot i).dirty &&& (m.slot i).present = (s.slot i).dirty
    rw [hpresent]
    exact hsub
  · have := h.fill j (hwanted ▸ hj)
    by_cases hij : i = j
    · subst hij
      rw [hslot]
      exact this
    · rwa [hother j hij]
  · obtain ⟨hf, hs, hw, hb⟩ := h.port q hq
    exact ⟨by rwa [hport], by rwa [hport], fun j => by rw [hwaits, hport]; exact hw j, fun hin => by rw [hport]; exact hb (hwanted ▸ hin)⟩
  · obtain ⟨ha, hw, hb⟩ := h.loose q hq
    exact ⟨by rwa [hport], fun j => (hwaits q j).trans (hw j), fun hin => hb (hwanted ▸ hin)⟩

end Sys2Proof.Machine

/-! PROOF. The record of what stands beside slots, ports and requests: the owner and the granted read, the commit, the map writer and
the map loader, the store's state, the port drive. Which of them go together, and each change that an event makes to them (R62, R66,
R91 to R102, R127, R130, R135, R140 to R152, R157). -/

namespace Sys2Proof.Machine

variable {s u : State} {i j : SlotIx} {p q : PortId}

/-! ### The record -/

/-- What stands beside slots, ports and requests. -/
structure Control where
  owner : Owner
  reading : Option Reading
  commit : Option CommitRecord
  writer : Option MapWriter
  engineReq : Option EngineRequest
  store : StoreState
  phase : Option StartPhase
  long : LongCommand
  driven : Bool
  resetN : Bool
  loader : Option MapLoader

def State.control (s : State) : Control :=
  { owner := s.owner, reading := s.reading, commit := s.commit, writer := s.writer, engineReq := s.engineReq, store := s.store.state
    phase := s.store.phase, long := s.mgmt.long, driven := s.driven, resetN := s.resetN, loader := s.loader }

theorem OnlyAccess.control (h : OnlyAccess s u) : u.control = s.control := h.keeps (f := State.control) fun _ => rfl

/-- What the phase of a commit says of its map writer and of the offsets that its slot holds (R67, R83, R108). -/
structure CommitRecord.HeldOk (c : CommitRecord) (writer : Option MapWriter) (held : OffsetSet) : Prop where
  home : c.phase = .home → writer = none ∧ c.attempt.loadSet ≠ 0 ∧ subset c.attempt.loadSet held = true
  backfill : c.phase = .retireBackfill → writer = none ∧ held ≠ 0 ∧ held ||| c.backfill = fullSet
  spare : c.phase = .spareLoad → writer = none ∧ held = fullSet
  map : c.phase = .mapWrite → writer ≠ none ∧ held = fullSet

variable {c d : Control} {held : OffsetSet}

abbrev Control.works (c : Control) : Prop := c.store = .running ∨ c.store = .draining

/-- The owner and the granted read (R96, R97, R102, R127, R140). -/
abbrev Control.readingOwned (c : Control) : Prop :=
  (∀ g ∈ c.reading,
    (g.dropped = true ∧ c.owner = .none ∧ c.store = .starting ∧ c.phase = some .quietWait) ∨
      (∃ i : SlotIx, g.kind = .fill i ∧ c.owner = .fill i) ∨ (g.kind = .bypass .a ∧ c.owner = .bypass .a) ∨
      (g.kind = .bypass .b ∧ c.owner = .bypass .b)) ∧
    (∀ i : SlotIx, c.owner = .fill i → c.reading.map Reading.kind = some (.fill i)) ∧
    (c.owner = .bypass .a → c.reading.map Reading.kind = some (.bypass .a)) ∧
    (c.owner = .bypass .b → c.reading.map Reading.kind = some (.bypass .b))

/-- Which of them go together, with the offsets that the slot of a commit holds. -/
structure Control.Ok (c : Control) (held : OffsetSet) : Prop where
  commit : ∀ r ∈ c.commit, c.owner = .engine ∧ c.works ∧ c.engineReq = none ∧ r.HeldOk c.writer held
  retire : ∀ w ∈ c.writer, c.commit ≠ none → w.purpose = .retire ∨ w.purpose = .deadOnly
  formatting : ∀ w ∈ c.writer, c.commit = none → (w.purpose = .format0 ∨ w.purpose = .format1) ∧ c.store = .degraded
  engine : c.engineReq = some .commitEngine → c.works ∧ c.commit = none
  format : c.owner = .mapWriter ∨ c.engineReq = some .mapWriter →
    c.store = .degraded ∧ c.writer ≠ none ∧ c.commit = none ∧ c.long = .mapFormat
  granted : c.owner = .mapWriter → c.engineReq = none
  reading : c.readingOwned
  released : c.driven = false → c.owner = .none ∧ (c.resetN = false ∨ c.store = .quiesced)
  starting : c.store = .starting → c.owner = .none ∨ c.owner = .mapLoader
  loading : c.owner = .mapLoader → c.store = .starting
  phase : c.owner = .mapLoader ↔ c.phase = some .mapLoad
  loader : c.owner = .mapLoader ↔ c.loader ≠ none
  loaded : ∀ l ∈ c.loader, l.copy0.length ≤ 64 ∧ l.copy1.length ≤ 63 ∧ (l.copy1 ≠ [] → l.copy0.length = 64)
  reset : c.resetN = false → c.store = .starting ∧ c.phase = some .quietWait ∧ c.owner = .none ∧ c.reading = none ∧
    c.commit = none ∧ c.writer = none

/-! ### Nothing under way -/

theorem forall_mem_none {α : Type} {o : Option α} (h : o = none) {P : α → Prop} : ∀ a ∈ o, P a :=
  fun a ha => absurd (h ▸ ha) (Option.not_mem_none a)

/-- No owner, no commit, no map write and no map load; a read only that RESTART orphaned. -/
structure Control.Idle (c : Control) : Prop where
  owner : c.owner = .none := by rfl
  reading : ∀ g ∈ c.reading, g.dropped = true ∧ c.store = .starting ∧ c.phase = some .quietWait
  commit : c.commit = none := by rfl
  writer : c.writer = none := by rfl
  engineReq : c.engineReq = none := by rfl
  loader : c.loader = none := by rfl
  phase : c.phase ≠ some .mapLoad
  driven : c.driven = false → c.resetN = false ∨ c.store = .quiesced
  reset : c.resetN = false → c.store = .starting ∧ c.phase = some .quietWait ∧ c.reading = none

theorem Control.Idle.ok (h : c.Idle) (held : OffsetSet) : c.Ok held where
  commit := forall_mem_none h.commit
  retire := forall_mem_none h.writer
  formatting := forall_mem_none h.writer
  engine := by rw [h.engineReq]; nofun
  format := by rw [h.owner, h.engineReq]; rintro (e | e) <;> cases e
  granted := by rw [h.owner]; nofun
  reading := ⟨fun g hg => .inl ⟨(h.reading g hg).1, h.owner, (h.reading g hg).2⟩, by rw [h.owner]; nofun, by rw [h.owner]; nofun,
    by rw [h.owner]; nofun⟩
  released := fun hd => ⟨h.owner, h.driven hd⟩
  starting := fun _ => .inl h.owner
  loading := by rw [h.owner]; nofun
  phase := iff_of_false (by rw [h.owner]; nofun) h.phase
  loader := iff_of_false (by rw [h.owner]; nofun) fun hl => hl h.loader
  loaded := forall_mem_none h.loader
  reset := fun hr => ⟨(h.reset hr).1, (h.reset hr).2.1, h.owner, (h.reset hr).2.2, h.commit, h.writer⟩

/-! ### What an owner excludes -/

theorem Control.Ok.commit_none (h : c.Ok held) (ho : c.owner ≠ .engine) : c.commit = none :=
  Option.eq_none_iff_forall_ne_some.2 fun r hr => ho (h.commit r hr).1

theorem Control.Ok.loader_none (h : c.Ok held) (ho : c.owner ≠ .mapLoader) : c.loader = none :=
  Classical.not_not.1 fun hl => ho (h.loader.2 hl)

theorem Control.Ok.phase_ne (h : c.Ok held) (ho : c.owner ≠ .mapLoader) : c.phase ≠ some .mapLoad := fun hp => ho (h.phase.2 hp)

/-- The engine, the map writer and the map loader hold the array with no read under way, the port driven. -/
structure Control.Seized (c : Control) : Prop where
  reading : c.reading = none
  driven : c.driven = true
  resetN : c.resetN = true

theorem Control.Ok.seized (h : c.Ok held) (ho : c.owner = .engine ∨ c.owner = .mapWriter ∨ c.owner = .mapLoader) : c.Seized := by
  have hne : c.owner ≠ .none := by rcases ho with ho | ho | ho <;> rw [ho] <;> nofun
  refine ⟨Option.eq_none_iff_forall_ne_some.2 fun g hg => ?_, eq_true_of_ne_false fun hd => hne (h.released hd).1,
    eq_true_of_ne_false fun hr => hne (h.reset hr).2.2.1⟩
  rcases h.reading.1 g hg with ⟨-, hn, -⟩ | ⟨i, -, hn⟩ | ⟨-, hn⟩ | ⟨-, hn⟩
  · exact hne hn
  all_goals rw [hn] at ho; rcases ho with ho | ho | ho <;> cases ho

/-- With a commit in flight the engine holds the array. -/
structure Control.InFlight (c : Control) : Prop extends c.Seized where
  owner : c.owner = .engine
  works : c.works
  engineReq : c.engineReq = none
  loader : c.loader = none
  phase : c.phase ≠ some .mapLoad

theorem Control.Ok.inFlight (h : c.Ok held) {r : CommitRecord} (hr : c.commit = some r) : c.InFlight := by
  obtain ⟨ho, hw, he, -⟩ := h.commit r hr
  have hne : c.owner ≠ .mapLoader := by rw [ho]; nofun
  exact { h.seized (.inl ho) with owner := ho, works := hw, engineReq := he, loader := h.loader_none hne, phase := h.phase_ne hne }

/-- With the array held by the map writer a format is in progress. -/
structure Control.Formatting (c : Control) : Prop extends c.Seized where
  store : c.store = .degraded
  commit : c.commit = none
  long : c.long = .mapFormat
  engineReq : c.engineReq = none
  loader : c.loader = none
  phase : c.phase ≠ some .mapLoad

theorem Control.Ok.formats (h : c.Ok held) (ho : c.owner = .mapWriter) : c.Formatting := by
  obtain ⟨hs, -, hc, hl⟩ := h.format (.inl ho)
  have hne : c.owner ≠ .mapLoader := by rw [ho]; nofun
  exact { h.seized (.inr (.inl ho)) with
    store := hs, commit := hc, long := hl, engineReq := h.granted ho, loader := h.loader_none hne, phase := h.phase_ne hne }

/-- A free array: no read under way, no commit, RESET_N high. -/
structure Control.Free (c : Control) : Prop where
  reading : c.reading = none
  commit : c.commit = none
  loader : c.loader = none
  phase : c.phase ≠ some .mapLoad
  resetN : c.resetN = true

theorem Control.Ok.free (h : c.Ok held) (ho : c.owner = .none) (hs : c.store ≠ .starting) : c.Free := by
  have hne : c.owner ≠ .mapLoader := by rw [ho]; nofun
  refine ⟨Option.eq_none_iff_forall_ne_some.2 fun g hg => ?_, h.commit_none (by rw [ho]; nofun), h.loader_none hne, h.phase_ne hne,
    eq_true_of_ne_false fun hr => hs (h.reset hr).1⟩
  rcases h.reading.1 g hg with ⟨-, -, hn, -⟩ | ⟨i, -, hn⟩ | ⟨-, hn⟩ | ⟨-, hn⟩
  · exact hs hn
  all_goals exact nomatch ho.symm.trans hn

/-! ### Grants -/

theorem Control.Ok.offer (h : c.Ok held) (hw : c.works) (hc : c.commit = none) : Control.Ok { c with engineReq := some .commitEngine } held := by
  have howner : c.owner ≠ .mapWriter := fun ho => by
    rcases hw with hw | hw <;> exact nomatch hw.symm.trans (h.formats ho).store
  exact { h with
    commit := forall_mem_none hc
    engine := fun _ => ⟨hw, hc⟩
    format := fun ho => ho.elim (fun ho => absurd ho howner) fun ho => absurd (Option.some.inj ho) nofun
    granted := fun ho => absurd ho howner }

/-- An owner with its granted read. -/
inductive Owner.Reads : Owner → Reading → Prop where
  | fill (i : SlotIx) (g : Reading) (hg : g.kind = .fill i) : Reads (.fill i) g
  | bypass (p : PortId) (g : Reading) (hg : g.kind = .bypass p) : Reads (.bypass p) g

theorem Owner.Reads.other {o : Owner} {g : Reading} (h : o.Reads g) : o ≠ .engine ∧ o ≠ .mapWriter ∧ o ≠ .mapLoader := by
  cases h <;> exact ⟨nofun, nofun, nofun⟩

theorem Control.Ok.grantRead (h : c.Ok held) (ho : c.owner = .none) (hs : c.store ≠ .starting) (hd : c.driven = true) {o : Owner}
    {g : Reading} (hg : o.Reads g) : Control.Ok { c with owner := o, reading := some g } held := by
  have hfree := h.free ho hs
  obtain ⟨-, howner⟩ := hg.other
  exact { h with
    commit := forall_mem_none hfree.commit
    format := fun hf => h.format (.inr (hf.resolve_left howner.1))
    granted := fun hf => absurd hf howner.1
    reading := by
      cases hg with
      | fill i g hg => exact ⟨fun r hr => .inr (.inl ⟨i, Option.some.inj hr ▸ hg, rfl⟩), fun j hj => Owner.fill.inj hj ▸ congrArg some hg,
        nofun, nofun⟩
      | bypass p g hg =>
        cases p with
        | a => exact ⟨fun r hr => .inr (.inr (.inl ⟨Option.some.inj hr ▸ hg, rfl⟩)), nofun, fun _ => congrArg some hg, nofun⟩
        | b => exact ⟨fun r hr => .inr (.inr (.inr ⟨Option.some.inj hr ▸ hg, rfl⟩)), nofun, nofun, fun _ => congrArg some hg⟩
    released := fun hr => nomatch hd.symm.trans hr
    starting := fun h' => absurd h' hs
    loading := fun hl => absurd hl howner.2
    phase := iff_of_false howner.2 hfree.phase
    loader := iff_of_false howner.2 fun hl => hl hfree.loader
    reset := fun hr => nomatch hfree.resetN.symm.trans hr }

theorem Control.Ok.grantCommit (h : c.Ok held) (ho : c.owner = .none) (hd : c.driven = true) (he : c.engineReq = some .commitEngine)
    {r : CommitRecord} {held' : OffsetSet} (hr : r.HeldOk none held') :
    Control.Ok { c with owner := .engine, commit := some r, engineReq := none } held' := by
  obtain ⟨hw, hc⟩ := h.engine he
  have hs : c.store ≠ .starting := by rcases hw with hw | hw <;> rw [hw] <;> nofun
  have hfree := h.free ho hs
  have hwriter : c.writer = none := Option.eq_none_iff_forall_ne_some.2 fun w hf => by
    rcases hw with hw | hw <;> exact nomatch hw.symm.trans (h.formatting w hf hc).2
  exact {
    commit := fun r' hr' => by
      obtain rfl := Option.some.inj hr'
      exact ⟨rfl, hw, rfl, hwriter ▸ hr⟩
    retire := forall_mem_none hwriter
    formatting := forall_mem_none hwriter
    engine := nofun
    format := fun hf => by rcases hf with hf | hf <;> cases hf
    granted := nofun
    reading := ⟨forall_mem_none hfree.reading, nofun, nofun, nofun⟩
    released := fun hr => nomatch hd.symm.trans hr
    starting := fun h' => absurd h' hs
    loading := nofun
    phase := iff_of_false nofun hfree.phase
    loader := iff_of_false nofun fun hl => hl hfree.loader
    loaded := h.loaded
    reset := fun hr => nomatch hfree.resetN.symm.trans hr }

theorem Control.Ok.grantWriter (h : c.Ok held) (ho : c.owner = .none) (hd : c.driven = true) (he : c.engineReq = some .mapWriter) :
    Control.Ok { c with owner := .mapWriter, engineReq := none } held := by
  have hformat := h.format (.inr he)
  have hs : c.store ≠ .starting := by rw [hformat.1]; nofun
  have hfree := h.free ho hs
  exact { h with
    commit := forall_mem_none hfree.commit
    engine := nofun
    format := fun _ => hformat
    granted := fun _ => rfl
    reading := ⟨forall_mem_none hfree.reading, nofun, nofun, nofun⟩
    released := fun hr => nomatch hd.symm.trans hr
    starting := fun h' => absurd h' hs
    loading := nofun
    phase := iff_of_false nofun hfree.phase
    loader := iff_of_false nofun fun hl => hl hfree.loader
    reset := fun hr => nomatch hfree.resetN.symm.trans hr }

/-! ### The end of a granted read -/

/-- A fill or bypass read under way: the owner is its own, or it was orphaned. -/
theorem Control.Ok.reads (h : c.Ok held) {g : Reading} (hg : c.reading = some g) : c.owner = .none ∨ c.owner.Reads g := by
  rcases h.reading.1 g hg with ⟨-, ho, -⟩ | ⟨i, hk, ho⟩ | ⟨hk, ho⟩ | ⟨hk, ho⟩
  · exact .inl ho
  · exact .inr (ho ▸ .fill i g hk)
  · exact .inr (ho ▸ .bypass .a g hk)
  · exact .inr (ho ▸ .bypass .b g hk)

/-- A read ends; the port may be released in QUIESCED. -/
theorem Control.Ok.endRead (h : c.Ok held) {g : Reading} (hg : c.reading = some g) {b : Bool}
    (hb : b = false → c.driven = false ∨ c.store = .quiesced) :
    Control.Ok { c with owner := .none, reading := none, driven := b } held := by
  have howner : c.owner ≠ .engine ∧ c.owner ≠ .mapWriter ∧ c.owner ≠ .mapLoader := by
    rcases h.reads hg with ho | ho
    · rw [ho]
      exact ⟨nofun, nofun, nofun⟩
    · exact ho.other
  exact { h with
    commit := forall_mem_none (h.commit_none howner.1)
    format := fun hf => h.format (.inr (hf.resolve_left nofun))
    granted := nofun
    reading := ⟨forall_mem_none rfl, nofun, nofun, nofun⟩
    released := fun hr => ⟨rfl, (hb hr).elim (fun hd => (h.released hd).2) .inr⟩
    starting := fun _ => .inl rfl
    loading := nofun
    phase := iff_of_false nofun (h.phase_ne howner.2.2)
    loader := iff_of_false nofun fun hl => hl (h.loader_none howner.2.2)
    reset := fun hr => by
      obtain ⟨hs, hp, -, -, hc, hw⟩ := h.reset hr
      exact ⟨hs, hp, rfl, rfl, hc, hw⟩ }

theorem Control.Ok.dropRead (h : c.Ok held) : Control.Ok { c with reading := c.reading.map fun g => { g with dropped := true } } held := by
  have hkind : (c.reading.map fun g => { g with dropped := true }).map Reading.kind = c.reading.map Reading.kind := by
    rw [Option.map_map]
    rfl
  obtain ⟨hg, hi, ha, hb⟩ := h.reading
  refine { h with
    reading := ⟨fun r hr => ?_, fun i ho => hkind.trans (hi i ho), fun ho => hkind.trans (ha ho), fun ho => hkind.trans (hb ho)⟩
    reset := fun hr => ?_ }
  · obtain ⟨g, hc, rfl⟩ := Option.map_eq_some_iff.1 hr
    exact (hg g hc).imp_left fun hd => ⟨rfl, hd.2⟩
  · obtain ⟨hs, hp, ho, hn, hrest⟩ := h.reset hr
    exact ⟨hs, hp, ho, by show c.reading.map _ = none; rw [hn]; rfl, hrest⟩

end Sys2Proof.Machine

/-! PROOF. The record of what stands beside slots, ports and requests through the start-up, QUIESCED, a format and the steps of a
commit (R70, R107 to R112, R127, R131, R135, R140, R141, R145). -/

namespace Sys2Proof.Machine

variable {s u : State} {i j : SlotIx} {p q : PortId} {c d : Control} {held : OffsetSet}

/-! ### The start-up -/

theorem Control.Ok.writer_none (h : c.Ok held) (hc : c.commit = none) (hs : c.store ≠ .degraded) : c.writer = none :=
  Option.eq_none_iff_forall_ne_some.2 fun w hw => hs (h.formatting w hw hc).2

theorem Control.Ok.engineReq_none (h : c.Ok held) (he : c.engineReq ≠ some .commitEngine) (hs : c.store ≠ .degraded) : c.engineReq = none :=
  Option.eq_none_iff_forall_ne_some.2 fun e hr => by
    cases e with
    | commitEngine => exact he hr
    | mapWriter => exact hs (h.format (.inr hr)).1

/-- Only RUNNING and DRAINING have an engine request of the commit engine. -/
theorem Control.Ok.unoffered (h : c.Ok held) (hw : ¬c.works) : c.engineReq ≠ some .commitEngine := fun he => hw (h.engine he).1

/-- In STARTING with no map load in flight nothing is under way but an orphaned read. -/
theorem Control.Ok.waiting (h : c.Ok held) (hs : c.store = .starting) (hp : c.phase ≠ some .mapLoad) :
    c.owner = .none ∧ c.commit = none ∧ c.writer = none ∧ c.engineReq = none ∧ c.loader = none := by
  have howner : c.owner = .none := (h.starting hs).resolve_right fun ho => hp (h.phase.1 ho)
  have hcommit := h.commit_none (by rw [howner]; nofun)
  exact ⟨howner, hcommit, h.writer_none hcommit (by rw [hs]; nofun),
    h.engineReq_none (h.unoffered (by rw [Control.works, hs]; nofun)) (by rw [hs]; nofun),
    h.loader_none (by rw [howner]; nofun)⟩

theorem Control.Ok.beginHold (h : c.Ok held) (hs : c.store = .starting) (hp : c.phase = some .quietWait) (hr : c.resetN = true) :
    Control.Ok { c with phase := some .hold, reading := none } held := by
  obtain ⟨ho, hc, hw, he, hl⟩ := h.waiting hs (by rw [hp]; nofun)
  exact Control.Idle.ok (c := { c with phase := some .hold, reading := none })
    { owner := ho, reading := forall_mem_none rfl, commit := hc, writer := hw, engineReq := he, loader := hl, phase := nofun
      driven := fun hd => (h.released hd).2
      reset := fun hn => nomatch hr.symm.trans hn } held

/-- At the rise of RESET_N nothing is under way (R157). -/
theorem Control.Ok.rise (h : c.Ok held) (hlow : c.resetN = false) : Control.Idle { c with resetN := true, driven := true } := by
  obtain ⟨hs, hp, ho, hr, hc, hw⟩ := h.reset hlow
  obtain ⟨-, -, -, he, hl⟩ := h.waiting hs (by rw [hp]; nofun)
  exact {
    owner := ho
    reading := fun g hg => nomatch hr.symm.trans hg
    commit := hc
    writer := hw
    engineReq := he
    loader := hl
    phase := fun hn => nomatch hp.symm.trans hn
    driven := nofun
    reset := nofun }

theorem Control.Ok.beginLoad (h : c.Ok held) (hs : c.store = .starting) (hp : c.phase = some .hold) :
    Control.Ok { c with phase := some .mapLoad, owner := .mapLoader, loader := some MapLoader.fresh } held := by
  obtain ⟨ho, hc, hw, he, hl⟩ := h.waiting hs (by rw [hp]; nofun)
  have hread : c.reading = none := Option.eq_none_iff_forall_ne_some.2 fun g hg => by
    rcases h.reading.1 g hg with ⟨-, -, -, hq⟩ | ⟨i, -, hn⟩ | ⟨-, hn⟩ | ⟨-, hn⟩
    · exact nomatch hp.symm.trans hq
    all_goals exact nomatch ho.symm.trans hn
  exact { h with
    commit := forall_mem_none hc
    format := fun hf => h.format (.inr (hf.resolve_left nofun))
    granted := nofun
    reading := ⟨forall_mem_none hread, nofun, nofun, nofun⟩
    released := fun hd => by
      rcases (h.released hd).2 with hr | hq
      · exact nomatch hp.symm.trans (h.reset hr).2.1
      · exact nomatch hs.symm.trans hq
    starting := fun _ => .inr rfl
    loading := fun _ => hs
    phase := iff_of_true rfl rfl
    loader := iff_of_true rfl nofun
    loaded := fun l hl => Option.some.inj hl ▸ ⟨Nat.zero_le _, Nat.zero_le _, fun hn => absurd rfl hn⟩
    reset := fun hr => nomatch hp.symm.trans (h.reset hr).2.1 }

theorem Control.Ok.load (h : c.Ok held) {l l' : MapLoader} (hl : c.loader = some l)
    (hlen : l'.copy0.length ≤ 64 ∧ l'.copy1.length ≤ 63 ∧ (l'.copy1 ≠ [] → l'.copy0.length = 64)) : Control.Ok { c with loader := some l' } held :=
  { h with
    loader := iff_of_true (h.loader.2 (by rw [hl]; nofun)) nofun
    loaded := fun r hr => Option.some.inj hr ▸ hlen }

/-- The map load ends: nothing is under way (R129, R142). -/
theorem Control.Ok.endLoad (h : c.Ok held) (ho : c.owner = .mapLoader) (st : StoreState) (l : LongCommand) :
    Control.Idle { c with owner := .none, loader := none, store := st, phase := none, long := l } := by
  have hseized := h.seized (.inr (.inr ho))
  have hs := h.loading ho
  have hc := h.commit_none (by rw [ho]; nofun)
  exact {
    reading := forall_mem_none hseized.reading
    commit := hc
    writer := h.writer_none hc (by rw [hs]; nofun)
    engineReq := h.engineReq_none (h.unoffered (by rw [Control.works, hs]; nofun)) (by rw [hs]; nofun)
    phase := nofun
    driven := fun hd => nomatch hseized.driven.symm.trans hd
    reset := fun hr => nomatch hseized.resetN.symm.trans hr }

/-! ### QUIESCED and back -/

theorem Control.Ok.quiesce (h : c.Ok held) (hw : c.works) (hc : c.commit = none) (he : c.engineReq ≠ some .commitEngine) (l : LongCommand) :
    Control.Ok { c with store := .quiesced, long := l, driven := if c.owner = .none then false else c.driven } held := by
  have hnot : c.store ≠ .starting ∧ c.store ≠ .degraded := by rcases hw with hw | hw <;> rw [hw] <;> exact ⟨nofun, nofun⟩
  have hload : c.owner ≠ .mapLoader := fun ho => hnot.1 (h.loading ho)
  exact { h with
    commit := forall_mem_none hc
    formatting := fun w hf _ => absurd (h.formatting w hf hc).2 hnot.2
    engine := fun hr => absurd hr he
    format := fun hf => absurd (h.format hf).1 hnot.2
    reading := ⟨fun g hg => by
      rcases h.reading.1 g hg with ⟨-, -, hs, -⟩ | hg
      · exact absurd hs hnot.1
      · exact .inr hg, h.reading.2⟩
    released := fun hd => by
      by_cases ho : c.owner = .none
      · exact ⟨ho, .inr rfl⟩
      · rw [if_neg ho] at hd
        exact absurd (h.released hd).1 ho
    starting := nofun
    loading := fun ho => absurd ho hload
    reset := fun hr => absurd (h.reset hr).1 hnot.1 }

/-- QUIESCE begins the drain (R144). -/
theorem Control.Ok.drain (h : c.Ok held) (hs : c.store = .running) (l : LongCommand) : Control.Ok { c with store := .draining, long := l } held := by
  have hdegraded : c.store ≠ .degraded := by rw [hs]; nofun
  exact { h with
    commit := fun r hr => by
      obtain ⟨ho, -, hrest⟩ := h.commit r hr
      exact ⟨ho, .inr rfl, hrest⟩
    formatting := fun w hw hc => absurd (h.formatting w hw hc).2 hdegraded
    engine := fun he => ⟨.inr rfl, (h.engine he).2⟩
    format := fun hf => absurd (h.format hf).1 hdegraded
    reading := ⟨fun g hg => by
      rcases h.reading.1 g hg with ⟨-, -, hn, -⟩ | hg
      · exact nomatch hs.symm.trans hn
      · exact .inr hg, h.reading.2⟩
    released := fun hd => by
      obtain ⟨ho, hr | hq⟩ := h.released hd
      · exact ⟨ho, .inl hr⟩
      · exact nomatch hs.symm.trans hq
    starting := nofun
    loading := fun ho => nomatch hs.symm.trans (h.loading ho)
    reset := fun hr => nomatch hs.symm.trans (h.reset hr).1 }

/-- In QUIESCED with the port released nothing is under way. -/
theorem Control.Ok.quiesced (h : c.Ok held) (hs : c.store = .quiesced) (hd : c.driven = false) : c.Idle := by
  have ho := (h.released hd).1
  have hfree := h.free ho (by rw [hs]; nofun)
  exact {
    owner := ho
    reading := forall_mem_none hfree.reading
    commit := hfree.commit
    writer := h.writer_none hfree.commit (by rw [hs]; nofun)
    engineReq := h.engineReq_none (h.unoffered (by rw [Control.works, hs]; nofun)) (by rw [hs]; nofun)
    loader := hfree.loader
    phase := hfree.phase
    driven := fun _ => .inr hs
    reset := fun hr => nomatch hfree.resetN.symm.trans hr }

/-- RESUME begins the start-up hold with nothing under way (R147). -/
theorem Control.Ok.resume (h : c.Ok held) (hs : c.store = .quiesced) (hd : c.driven = false) (hr : c.resetN = true) (l : LongCommand) :
    Control.Idle { c with store := .starting, phase := some .hold, long := l, driven := true } := by
  have hq := h.quiesced hs hd
  exact {
    owner := hq.owner
    reading := fun g hg => nomatch hs.symm.trans (hq.reading g hg).2.1
    commit := hq.commit
    writer := hq.writer
    engineReq := hq.engineReq
    loader := hq.loader
    phase := nofun
    driven := nofun
    reset := fun hn => nomatch hr.symm.trans hn }

/-! ### Formats and commits -/

theorem Control.Ok.beginFormat (h : c.Ok held) (hs : c.store = .degraded) (hl : c.long = .none) {w : MapWriter} (hw : w.purpose = .format0) :
    Control.Ok { c with long := .mapFormat, writer := some w, engineReq := some .mapWriter } held := by
  have hc : c.commit = none := Option.eq_none_iff_forall_ne_some.2 fun r hr => by
    rcases (h.commit r hr).2.1 with hw | hw <;> exact nomatch hs.symm.trans hw
  have ho : c.owner ≠ .mapWriter := fun ho => nomatch hl.symm.trans (h.formats ho).long
  exact { h with
    commit := forall_mem_none hc
    retire := fun _ _ hn => absurd hc hn
    formatting := fun r hr _ => Option.some.inj hr ▸ ⟨.inl hw, hs⟩
    engine := nofun
    format := fun _ => ⟨hs, nofun, hc, rfl⟩
    granted := fun hf => absurd hf ho
    reset := fun hr => nomatch hs.symm.trans (h.reset hr).1 }

theorem Control.Ok.formatStep (h : c.Ok held) (ho : c.owner = .mapWriter) {w : MapWriter} (hw : w.purpose = .format0 ∨ w.purpose = .format1) :
    Control.Ok { c with writer := some w } held := by
  have hf := h.formats ho
  exact { h with
    commit := forall_mem_none hf.commit
    retire := fun _ _ hn => absurd hf.commit hn
    formatting := fun r hr _ => Option.some.inj hr ▸ ⟨hw, hf.store⟩
    format := fun _ => ⟨hf.store, nofun, hf.commit, hf.long⟩
    reset := fun hr => nomatch hf.resetN.symm.trans hr }

theorem Control.Ok.commitStep (h : c.Ok held) {r r' : CommitRecord} (hr : c.commit = some r) {w : Option MapWriter} {held' : OffsetSet}
    (hr' : r'.HeldOk w held') (hw : ∀ x ∈ w, x.purpose = .retire ∨ x.purpose = .deadOnly) :
    Control.Ok { c with commit := some r', writer := w } held' := by
  have hf := h.inFlight hr
  exact { h with
    commit := fun x hx => by
      obtain rfl := Option.some.inj hx
      exact ⟨hf.owner, hf.works, hf.engineReq, hr'⟩
    retire := fun x hx _ => hw x hx
    formatting := fun _ _ hn => absurd hn (Option.some_ne_none _)
    engine := fun he => nomatch hf.engineReq.symm.trans he
    format := fun hm => hm.elim (fun ho => nomatch hf.owner.symm.trans ho) fun he => nomatch hf.engineReq.symm.trans he
    reset := fun hn => nomatch hf.resetN.symm.trans hn }

/-- The commit ends: nothing is under way (R78, R80). -/
theorem Control.Ok.endCommit (h : c.Ok held) {r : CommitRecord} (hr : c.commit = some r) (st : StoreState) {ph : Option StartPhase}
    (hph : ph ≠ some .mapLoad) (l : LongCommand) :
    Control.Idle { c with commit := none, writer := none, owner := .none, store := st, phase := ph, long := l } := by
  have hf := h.inFlight hr
  exact {
    reading := forall_mem_none hf.reading
    engineReq := hf.engineReq
    loader := hf.loader
    phase := hph
    driven := fun hd => nomatch hf.driven.symm.trans hd
    reset := fun hn => nomatch hf.resetN.symm.trans hn }

/-- The format ends: nothing is under way (R135, R136). -/
theorem Control.Ok.endFormat (h : c.Ok held) (ho : c.owner = .mapWriter) (st : StoreState) {ph : Option StartPhase} (hph : ph ≠ some .mapLoad)
    (l : LongCommand) : Control.Idle { c with writer := none, owner := .none, store := st, phase := ph, long := l } := by
  have hf := h.formats ho
  exact {
    reading := forall_mem_none hf.reading
    commit := hf.commit
    engineReq := hf.engineReq
    loader := hf.loader
    phase := hph
    driven := fun hd => nomatch hf.driven.symm.trans hd
    reset := fun hn => nomatch hf.resetN.symm.trans hn }

end Sys2Proof.Machine

/-! PROOF. The part as a whole: the core in its context and the record of what is under way. Soundness as the manual states it comes to
this, with the pages of the slots and the fields of the store's record, which have statements of their own. -/

namespace Sys2Proof.Machine

variable {s u : State} {i j : SlotIx} {p q : PortId} {k : Ctx} {held : OffsetSet}

/-- The context that a state gives, a commit's slot holding the given offsets. -/
def State.ctx (s : State) (held : OffsetSet) : Ctx :=
  { awaited := s.awaited, commit := s.commit.map fun c => ⟨c.slot, c.page, held⟩, queued := s.engineReq = some .commitEngine, loose := fun _ => False }

/-! ### Sets of offsets -/

theorem subset_iff {a b : OffsetSet} : subset a b = true ↔ a &&& b = a := decide_eq_true_iff

theorem eq_fullSet {b : OffsetSet} (h : fullSet &&& b = fullSet) : b = fullSet := BitVec.allOnes_and.symm.trans h

theorem union_fullSet {a b c : OffsetSet} (h : a &&& b = a) (hc : a ||| c = fullSet) : b ||| c = fullSet := by
  refine eq_fullSet (inter_eq_left_iff.2 fun n hn => ?_)
  rw [← hc] at hn
  rw [BitVec.getLsbD_or, Bool.or_eq_true] at hn ⊢
  exact hn.imp_left (inter_eq_left_iff.1 h n)

/-! ### The part as a whole -/

/-- The part is sound, but for the pages of its slots and the fields of the store's record. -/
def Whole (s : State) : Prop := ∃ held, Core (s.ctx held) s ∧ s.control.Ok held

theorem State.ctx_congr (h : u.control = s.control) (held : OffsetSet) : u.ctx held = s.ctx held := by
  have hr : u.reading = s.reading := congrArg Control.reading h
  have hc : u.commit = s.commit := congrArg Control.commit h
  have he : u.engineReq = s.engineReq := congrArg Control.engineReq h
  unfold State.ctx State.awaited
  rw [hr, hc, he]

theorem Core.requeue (h : Core k s) {q : Prop} (hq : q → s.queue ≠ []) : Core { k with queued := q } s := { h with queued := hq }

/-- A commit's slot holds these offsets too. -/
theorem Core.hold (h : Core k s) {c : Held} (hc : k.commit = some c) {b : OffsetSet} (hne : b ≠ 0) (hsub : b &&& (s.slot c.slot).present = b) :
    Core { k with commit := some { c with bytes := b } } s := by
  refine { h with committing := fun i => ?_, held := fun d hd => ?_ }
  · rw [h.committing, hc]
    exact Iff.rfl
  · obtain rfl := Option.some.inj hd
    exact ⟨(h.held c hc).1, hne, hsub⟩

theorem Whole.intro (held : OffsetSet) (h : Core k u) (awaited : u.awaited = k.awaited)
    (commit : (u.commit.map fun c => (⟨c.slot, c.page, held⟩ : Held)) = k.commit) (queued : u.engineReq = some .commitEngine → k.queued)
    (loose : ∀ p, ¬k.loose p) (ok : u.control.Ok held) : Whole u := by
  refine ⟨held, ?_, ok⟩
  have hk : u.ctx held = { k with queued := u.engineReq = some .commitEngine } := by
    have hloose : (fun _ => False) = k.loose := funext fun p => propext (iff_of_false id (loose p))
    unfold State.ctx
    rw [awaited, commit, hloose]
  rw [hk]
  exact h.requeue fun he => h.queued (queued he)

/-- An operation that keeps the core, and the record of what is under way. -/
theorem Whole.mono (h : Whole s) (hcontrol : u.control = s.control) (hcore : ∀ k : Ctx, (∀ p, ¬k.loose p) → Core k s → Core k u) : Whole u := by
  obtain ⟨held, hc, hok⟩ := h
  exact ⟨held, State.ctx_congr hcontrol held ▸ hcore _ (fun _ => id) hc, hcontrol ▸ hok⟩

/-- Nothing is under way. -/
theorem Whole.idle (h : Core k u) (hk : k.awaited = none ∧ k.commit = none) (loose : ∀ p, ¬k.loose p) (hidle : u.control.Idle) : Whole u := by
  refine .intro 0 h ?_ ?_ (fun he => nomatch hidle.engineReq.symm.trans he) loose (hidle.ok 0)
  · rw [hk.1]
    unfold State.awaited
    cases hr : u.reading with
    | none => rfl
    | some g => exact if_pos (hidle.reading g hr).1
  · have hc : u.commit = none := hidle.commit
    rw [hk.2, hc]
    rfl

/-! ### Soundness -/

theorem Core.sound (h : Core k s) (hk : ∀ p, ¬k.loose p) : s.collectionsOk ∧ (∀ i : SlotIx, (s.slot i).setsOk ∧ (s.slot i).fieldsOk) ∧
    (s.portA.fieldsOk ∧ s.portB.fieldsOk ∧ s.waitOk .a ∧ s.waitOk .b ∧ s.freeSlotsOk ∧ s.sizesOk) ∧ s.requests.Nodup ∧ s.requestOwners :=
  have ha := h.port .a (hk .a)
  have hb := h.port .b (hk .b)
  ⟨h.coll, fun i => ⟨(h.slot i).sets, (h.slot i).fields⟩, ⟨ha.fields, hb.fields, ha.wait, hb.wait, fun i => (h.slot i).idle, ha.size, hb.size⟩,
    (List.nodup_append.1 h.nodup).2.1, fun i hi => h.fill i (List.mem_append_right _ hi), fun hr => ha.bypass (List.mem_append_right _ hr),
    fun hr => hb.bypass (List.mem_append_right _ hr)⟩

theorem Core.readingAwaited (h : Core k s) (hk : ∀ p, ¬k.loose p) (ha : k.awaited = s.awaited) : s.readingAwaited := by
  intro g hg hd
  obtain ⟨-, -, hdisjoint⟩ := List.nodup_append.1 h.nodup
  have hawaited : ∀ r, s.awaited = some r → r ∈ s.wanted k.awaited ∧ r ∉ s.requests := fun r hr =>
    have hmem : r ∈ k.awaited.toList := Option.mem_toList.2 (ha.trans hr)
    ⟨List.mem_append_left _ hmem, fun hin => hdisjoint r hmem r hin rfl⟩
  have hreading : s.reading = some g := hg
  refine ⟨fun i hi => ?_, fun hb => ?_, fun hb => ?_⟩
  · obtain ⟨hin, hnot⟩ := hawaited (.fill i) (by simp [State.awaited, hreading, hd, hi])
    exact ⟨fun hs => h.fill i hin ((h.slot i).idle hs).1, h.fill i hin, hnot⟩
  · obtain ⟨hin, hnot⟩ := hawaited (.bypass .a) (by simp [State.awaited, hreading, hd, hb])
    exact ⟨(h.port .a (hk .a)).bypass hin, hnot⟩
  · obtain ⟨hin, hnot⟩ := hawaited (.bypass .b) (by simp [State.awaited, hreading, hd, hb])
    exact ⟨(h.port .b (hk .b)).bypass hin, hnot⟩

theorem Whole.commitSound (h : Whole s) : s.commitOk ∧ s.commitSound := by
  obtain ⟨held, hcore, hok⟩ := h
  refine ⟨fun i => (hcore.committing i).trans ?_, fun c hc => ?_⟩
  · unfold State.ctx
    rw [Option.map_map]
    exact Iff.rfl
  · obtain ⟨ho, hw, he, ⟨hhome, hfill, hspare, hmap⟩⟩ := hok.commit c hc
    obtain ⟨hpage, hne, hsub⟩ := hcore.held ⟨c.slot, c.page, held⟩ (Option.map_eq_some_iff.2 ⟨c, hc, rfl⟩)
    have hsub : held &&& (s.slot c.slot).present = held := hsub
    have hfull : held = fullSet → (s.slot c.slot).present = fullSet := fun hf => eq_fullSet (hf ▸ hsub)
    refine ⟨ho, hw, he, hpage, fun hp => ?_, fun hp => ?_, fun hp => (hspare hp).imp_right hfull, fun hp => (hmap hp).imp_right hfull⟩
    · obtain ⟨hwriter, hload, hheld⟩ := hhome hp
      exact ⟨hwriter, hload, subset_iff.2 (inter_eq_left_trans (subset_iff.1 hheld) hsub)⟩
    · obtain ⟨hwriter, -, hunion⟩ := hfill hp
      refine ⟨hwriter, fun hz => hne ?_, union_fullSet hsub hunion⟩
      show held = 0
      rw [← hsub, hz]
      exact BitVec.and_zero

theorem Whole.sound (h : Whole s) (hpages : s.pagesOk) (hstore : s.store.fieldsOk) : s.sound := by
  have hcommit := h.commitSound
  obtain ⟨held, hcore, hok⟩ := h
  obtain ⟨hcoll, hslots, hports, hnodup, howners⟩ := hcore.sound fun _ => id
  exact ⟨⟨hcoll, hpages, hslots⟩, hports,
    ⟨hcommit.1, hcommit.2, fun w hw => ⟨hok.retire w hw, hok.formatting w hw⟩, fun he => ⟨(hok.engine he).1, hcore.queued he,
      (hok.engine he).2⟩, hok.format, hok.granted⟩,
    ⟨hnodup, howners, hok.reading, hcore.readingAwaited (fun _ => id) rfl⟩, hstore, ⟨hok.released, hok.starting, hok.loading⟩,
    ⟨hok.phase, hok.loader, hok.loaded⟩, hok.reset⟩

theorem State.awaited_cases {r : Request} (h : s.awaited = some r) : ∃ g ∈ s.reading, g.dropped = false ∧
    ((∃ i, r = .fill i ∧ g.kind = .fill i) ∨ ∃ p, r = .bypass p ∧ g.kind = .bypass p) := by
  unfold State.awaited at h
  split at h
  · cases h
  · rename_i g hg
    split at h
    · cases h
    · rename_i hd
      refine ⟨g, hg, eq_false_of_ne_true hd, ?_⟩
      split at h
      · exact .inl ⟨_, (Option.some.inj h).symm, ‹_›⟩
      · exact .inr ⟨_, (Option.some.inj h).symm, ‹_›⟩
      · cases h

/-- Those that await the granted read of a sound part. -/
theorem State.readingAwaited_fill (h : s.readingAwaited) (hf : s.awaited = some (.fill i)) :
    (s.slot i).fillPending ≠ none ∧ Request.fill i ∉ s.requests := by
  obtain ⟨g, hg, hd, ⟨j, hr, hk⟩ | ⟨p, hr, -⟩⟩ := State.awaited_cases hf
  · obtain rfl := Request.fill.inj hr
    exact ((h g hg hd).1 i hk).2
  · cases hr

theorem State.readingAwaited_bypass (h : s.readingAwaited) (hb : s.awaited = some (.bypass p)) :
    (s.port p).state = .waitBypass ∧ Request.bypass p ∉ s.requests := by
  obtain ⟨g, hg, hd, ⟨j, hr, -⟩ | ⟨q, hr, hk⟩⟩ := State.awaited_cases hb
  · cases hr
  · obtain rfl := Request.bypass.inj hr
    cases p with
    | a => exact (h g hg hd).2.1 hk
    | b => exact (h g hg hd).2.2 hk

/-- What a sound part's slot holds for its commit. -/
theorem State.commitSound_heldOk (h : s.commitSound) {c : CommitRecord} (hc : s.commit = some c) : (s.slot c.slot).present ≠ 0 ∧
    c.HeldOk s.writer (s.slot c.slot).present := by
  obtain ⟨-, -, -, -, hhome, hfill, hspare, hmap⟩ := h c hc
  have hfull : fullSet ≠ 0 := by decide
  refine ⟨?_, hhome, hfill, hspare, hmap⟩
  cases hp : c.phase with
  | home =>
    obtain ⟨-, hload, hsub⟩ := hhome hp
    exact fun hz => hload (subset_empty (hz ▸ hsub))
  | retireBackfill => exact (hfill hp).2.1
  | spareLoad => rwa [(hspare hp).2]
  | mapWrite => rwa [(hmap hp).2]

theorem State.sound.core (h : s.sound) : ∃ held, Core (s.ctx held) s ∧ ∀ c ∈ s.commit, c.HeldOk s.writer held := by
  obtain ⟨⟨hcoll, -, hslots⟩, ⟨hfa, hfb, hwa, hwb, hfree, hsa, hsb⟩, ⟨hcommitting, hcommit, -, hengine, -⟩,
    ⟨hnodup, ⟨hfills, hba, hbb⟩, -, hawaited⟩, -⟩ := h
  let held : OffsetSet := (s.commit.map fun c => (s.slot c.slot).present).getD 0
  have hheld : ∀ c, s.commit = some c → held = (s.slot c.slot).present := fun c hc => by
    show (s.commit.map _).getD 0 = _
    rw [hc]
    rfl
  have hbypass : ∀ p, Request.bypass p ∈ s.requests → (s.port p).state = .waitBypass := fun p => by
    cases p with
    | a => exact hba
    | b => exact hbb
  refine ⟨held, ⟨hcoll, fun he => (hengine he).2.1, fun i => ⟨(hslots i).1, (hslots i).2, hfree i⟩, fun i => (hcommitting i).trans ?_,
    fun c hc => ?_, ?_,
    fun i hi => ?_, fun p _ => ?_, nofun⟩, fun c hc => hheld c hc ▸ (State.commitSound_heldOk hcommit hc).2⟩
  · unfold State.ctx
    rw [Option.map_map]
    exact Iff.rfl
  · obtain ⟨r, hr, rfl⟩ := Option.map_eq_some_iff.1 hc
    obtain ⟨-, -, -, hpage, -⟩ := hcommit r hr
    exact ⟨hpage, (hheld r hr).symm ▸ (State.commitSound_heldOk hcommit hr).1, (hheld r hr).symm ▸ BitVec.and_self⟩
  · refine List.nodup_append.2 ⟨?_, hnodup, fun r hr q hq e => ?_⟩
    · show s.awaited.toList.Nodup
      cases s.awaited <;> simp
    · subst e
      have hr := Option.mem_toList.1 hr
      cases r with
      | fill i => exact (State.readingAwaited_fill hawaited hr).2 hq
      | bypass p => exact (State.readingAwaited_bypass hawaited hr).2 hq
  · rcases List.mem_append.1 hi with hr | hr
    · exact (State.readingAwaited_fill hawaited (Option.mem_toList.1 hr)).1
    · exact hfills i hr
  · refine ⟨?_, ?_, ?_, fun hin => (List.mem_append.1 hin).elim
      (fun hr => (State.readingAwaited_bypass hawaited (Option.mem_toList.1 hr)).1) (hbypass p)⟩
    · cases p with | a => exact hfa | b => exact hfb
    · cases p with | a => exact hsa | b => exact hsb
    · cases p with | a => exact hwa | b => exact hwb

theorem State.sound.whole (h : s.sound) : Whole s := by
  obtain ⟨held, hcore, hheld⟩ := h.core
  obtain ⟨-, -, ⟨-, hcommit, hwriter, hengine, hformat, hgranted⟩, ⟨-, -, hreading, -⟩, -, ⟨hreleased, hstarting, hloading⟩,
    ⟨hphase, hloader, hloaded⟩, hreset⟩ := h
  exact ⟨held, hcore, {
    commit := fun c hc => ⟨(hcommit c hc).1, (hcommit c hc).2.1, (hcommit c hc).2.2.1, hheld c hc⟩
    retire := fun w hw => (hwriter w hw).1
    formatting := fun w hw => (hwriter w hw).2
    engine := fun he => ⟨(hengine he).1, (hengine he).2.2⟩
    format := hformat, granted := hgranted, reading := hreading, released := hreleased, starting := hstarting, loading := hloading
    phase := hphase, loader := hloader, loaded := hloaded, reset := hreset }⟩

end Sys2Proof.Machine

/-! PROOF. Attempts, loads and the grant rule: each keeps the part sound, and the end of an event leaves no grant undone (R62, R66, R68,
R70, R93 to R97, R100). -/

namespace Sys2Proof.Machine

variable {s u : State} {i j : SlotIx} {p q : PortId} {k : Ctx} {held : OffsetSet} {c : Control}

/-! ### Attempts and loads -/

theorem CommitRecord.HeldOk.writerAttempt {c : CommitRecord} {w : MapWriter} (h : c.HeldOk (some w) held) (w' : MapWriter) :
    c.HeldOk (some w') held where
  home := fun hp => nomatch (h.home hp).1
  backfill := fun hp => nomatch (h.backfill hp).1
  spare := fun hp => nomatch (h.spare hp).1
  map := fun hp => ⟨nofun, (h.map hp).2⟩

/-- The attempt loads offsets that the one under way loads, and some. -/
abbrev Attempt.Within (a b : Attempt) : Prop := (b.loadSet ≠ 0 → a.loadSet ≠ 0) ∧ subset a.loadSet b.loadSet = true

theorem Attempt.Within.same {a b : Attempt} (h : a.loadSet = b.loadSet) : a.Within b :=
  ⟨fun hb => h ▸ hb, h ▸ subset_iff.2 BitVec.and_self⟩

theorem CommitRecord.HeldOk.attempt {c : CommitRecord} {w : Option MapWriter} (h : c.HeldOk w held) {a : Attempt} (ha : a.Within c.attempt) :
    CommitRecord.HeldOk { c with attempt := a } w held where
  home := fun hp => by
    obtain ⟨hw, hload, hsub⟩ := h.home hp
    exact ⟨hw, ha.1 hload, subset_iff.2 (inter_eq_left_trans (subset_iff.1 ha.2) (subset_iff.1 hsub))⟩
  backfill := h.backfill
  spare := h.spare
  map := h.map

/-- The attempt under way is the map writer's, in a commit or with the array granted, or the commit's. -/
theorem State.attempt_cases {a : Attempt} (h : s.attempt = some a) :
    (∃ w, s.writer = some w ∧ w.attempt = a ∧ (s.commit ≠ none ∨ s.owner = .mapWriter)) ∨
    ∃ c, s.writer = none ∧ s.commit = some c ∧ c.attempt = a ∧ (c.phase = .home ∨ c.phase = .spareLoad) := by
  unfold State.attempt at h
  split at h
  · rename_i w c hw hc
    exact .inl ⟨w, hw, Option.some.inj h, .inl (by rw [hc]; nofun)⟩
  · rename_i w hw hc
    split at h
    · exact .inl ⟨w, hw, Option.some.inj h, .inr ‹_›⟩
    · cases h
  · rename_i c hw hc
    split at h
    · exact .inr ⟨c, hw, hc, Option.some.inj h, .inl ‹_›⟩
    · exact .inr ⟨c, hw, hc, Option.some.inj h, .inr ‹_›⟩
    · cases h
    · cases h
  · cases h

theorem Whole.setAttempt (h : Whole s) {a b : Attempt} (hb : s.attempt = some b) (ha : a.Within b) : Whole (s.setAttempt a) := by
  obtain ⟨held, hcore, hok⟩ := h
  rcases State.attempt_cases hb with ⟨w, hw, rfl, hholds⟩ | ⟨c, hw, hc, rfl, -⟩
  · rw [State.setAttempt_writer hw]
    refine .intro held (k := s.ctx held) hcore.congr rfl rfl id (fun _ => id) ?_
    rcases Option.eq_none_or_eq_some s.commit with hc | ⟨c, hc⟩
    · exact hok.formatStep (hholds.resolve_left (Classical.not_not.2 hc)) (hok.formatting w hw hc).1
    · obtain ⟨-, -, -, hheld⟩ := hok.commit c hc
      have hnew : c.HeldOk (some { w with attempt := a }) held := CommitRecord.HeldOk.writerAttempt (w := w) (hw ▸ hheld) _
      have hstep := hok.commitStep hc hnew fun x hx => Option.some.inj hx ▸ hok.retire w hw (by rw [State.control, hc]; nofun)
      rwa [← hc] at hstep
  · rw [State.setAttempt_commit hw hc]
    obtain ⟨-, -, -, hheld⟩ := hok.commit c hc
    refine .intro held (k := s.ctx held) hcore.congr rfl ?_ id (fun _ => id) ?_
    · unfold State.ctx
      rw [hc]
      rfl
    · exact hok.commitStep hc (hheld.attempt ha) fun x hx => nomatch hw.symm.trans hx

theorem Whole.issueLoad (h : Whole s) : Whole s.issueLoad := by
  unfold State.issueLoad
  split
  · exact h
  · rename_i a ha
    split
    · exact h
    · rename_i n rest hn
      exact (h.setAttempt (a := a.loaded n rest) ha (.same rfl)).mono rfl fun _ _ hc => hc.congr

/-! ### Grants -/

theorem Whole.offer (h : Whole s) : Whole s.offer := by
  rw [State.offer_eq]
  split
  · rename_i hcond
    obtain ⟨hw, hq, hc, -⟩ := hcond
    obtain ⟨held, hcore, hok⟩ := h
    exact .intro held (hcore.requeue (q := True) fun _ => hq).congr rfl rfl (fun _ => trivial) (fun _ => id) (hok.offer hw hc)
  · exact h

theorem Whole.snapshot (h : Whole s) (he : s.engineReq = some .commitEngine) (ho : s.owner = .none) (hd : s.driven = true) : Whole s.snapshot := by
  obtain ⟨held, hcore, hok⟩ := h
  obtain ⟨-, hc⟩ := hok.engine he
  unfold State.snapshot
  split
  · exact ⟨held, hcore, hok⟩
  · rename_i i later hqueue
    have hctx : (s.ctx held).commit = none := by
      show s.commit.map _ = none
      rw [show s.commit = none from hc]
      rfl
    obtain ⟨page, hpage, hdirty, hbegin⟩ := hcore.beginCommitting hctx hqueue
    have hframe := ((s.moveTo_frame i .committing).trans (State.modSlot_frame _ i fun x => { x with dirty := 0, dirtySince := none })).toOnlyAccess
    have hcontrol := hframe.control
    have hawaited := hframe.keeps (f := State.awaited) fun _ => rfl
    dsimp only
    generalize ((s.moveTo i .committing).modSlot i fun x => { x with dirty := 0, dirtySince := none }) = m at hbegin hcontrol hawaited ⊢
    refine Whole.issueLoad (.intro (s.slot i).dirty hbegin.congr hawaited ?_ nofun (fun _ => id) ?_)
    · rw [hpage]
      rfl
    · refine Control.Ok.grantCommit (c := m.control) (hcontrol ▸ hok) ((congrArg Control.owner hcontrol).trans ho)
        ((congrArg Control.driven hcontrol).trans hd) ((congrArg Control.engineReq hcontrol).trans he) ?_
      exact ⟨fun _ => ⟨rfl, hdirty, subset_iff.2 BitVec.and_self⟩, nofun, nofun, nofun⟩

theorem Whole.grantEngine (h : Whole s) (ho : s.owner = .none) (hd : s.driven = true) : Whole s.grantEngine := by
  unfold State.grantEngine
  split
  · exact h
  · exact h.snapshot ‹_› ho hd
  · rename_i he
    obtain ⟨held, hcore, hok⟩ := h
    exact Whole.issueLoad (.intro held hcore.congr rfl rfl nofun (fun _ => id) (hok.grantWriter ho hd he))

/-- With no read under way nothing granted is awaited. -/
theorem State.awaited_none (h : s.reading = none) : s.awaited = none := by
  unfold State.awaited
  rw [h]

/-- The head of the request list leaves it. -/
theorem Core.take_request (h : Core k s) (hk : k.awaited = none) {r : Request} {rest : List Request} (hr : s.requests = r :: rest) :
    Core { k with awaited := some r } s.takeRequest := by
  have hwanted : s.takeRequest.wanted (some r) = s.wanted k.awaited := by
    unfold State.wanted State.takeRequest
    rw [hk, hr]
    rfl
  have hport : ∀ p, s.takeRequest.port p = s.port p := fun p => by cases p <;> rfl
  obtain ⟨hcoll, hqueued, hslot, hcommitting, hheld, hnodup, hfill, hports, hloose⟩ := h
  rw [← hwanted] at hnodup hfill hports hloose
  refine ⟨hcoll, hqueued, hslot, hcommitting, hheld, hnodup, hfill, fun p hp => ?_, fun p hp => ?_⟩
  · obtain ⟨hf, hs, hw, hb⟩ := hports p hp
    exact ⟨by rwa [hport], by rwa [hport], fun i => by rw [hport]; exact hw i, by rwa [hport]⟩
  · obtain ⟨ha, hw, hb⟩ := hloose p hp
    exact ⟨by rwa [hport], hw, hb⟩

theorem Whole.grantRequest (h : Whole s) (hfree : s.arrayFree = true) {r : Request} {rest : List Request} (hr : s.requests = r :: rest) :
    Whole (s.grantRequest r) := by
  obtain ⟨hd, ho, -, hs⟩ := s.arrayFree_iff.1 hfree
  obtain ⟨held, hcore, hok⟩ := h
  have hread : s.reading = none := (hok.free ho hs).reading
  have hawaited := State.awaited_none hread
  have hcore' := hcore.take_request (r := r) hawaited hr
  unfold State.grantRequest
  dsimp only
  cases r with
  | fill i =>
    dsimp only
    split
    · generalize s.takeRequest.translate ((s.takeRequest.slot i).page.getD 0) = page
      have hcontrol : (s.takeRequest.completeFill i page 0).serveWaiting.control = s.control :=
        ((s.takeRequest.completeFill_frame i page 0).trans (State.serveWaiting_frame _)).control
      refine ⟨held, ?_, hcontrol ▸ hok⟩
      rw [State.ctx_congr hcontrol held]
      have hdone := (hcore'.completeFill page 0).serveWaiting fun _ => id
      have hctx : ({ s.ctx held with awaited := none } : Ctx) = s.ctx held := by
        unfold State.ctx
        rw [hawaited]
      exact hctx ▸ hdone
    · exact .intro held hcore'.congr rfl rfl id (fun _ => id) (hok.grantRead ho hs hd (.fill i _ rfl))
  | bypass p =>
    dsimp only
    split
    · refine .intro held hcore'.drop hawaited rfl id (fun _ => id) hok
    · exact .intro held hcore'.congr rfl rfl id (fun _ => id) (hok.grantRead ho hs hd (.bypass p _ rfl))

/-! ### The end of an event -/

theorem Whole.arbitrate (n : Nat) (h : Whole s) : Whole (State.arbitrate n s) := by
  induction n generalizing s with
  | zero => exact h
  | succ n ih =>
    have hm := h.offer
    have hfree : ∀ m : State, m.arrayFree ≠ false → m.owner = .none ∧ m.driven = true := fun m hm => by
      obtain ⟨hd, ho, -, -⟩ := m.arrayFree_iff.1 (eq_true_of_ne_false hm)
      exact ⟨ho, hd⟩
    unfold State.arbitrate
    dsimp only
    split
    · exact hm
    · rename_i hf
      obtain ⟨ho, hd⟩ := hfree _ hf
      split
      · exact hm.grantEngine ho hd
      · split
        · exact ih (hm.grantRequest (eq_true_of_ne_false hf) ‹_›)
        · split
          · exact hm.grantEngine ho hd
          · exact hm

theorem Whole.finish (h : Whole s) : Whole s.finish := h.arbitrate _

/-! ### Nothing left to grant -/

theorem State.settled_of_owner (ho : s.owner ≠ .none) (hq : s.works → s.queue ≠ [] → s.commit = none → s.engineReq ≠ none) : s.settled :=
  ⟨fun hf => absurd (s.arrayFree_iff.1 hf).2.1 ho, hq⟩

/-- An attempt replaced leaves the owner, the store and whether a commit is in flight. -/
theorem State.setAttempt_owner (s : State) (a : Attempt) :
    (s.setAttempt a).owner = s.owner ∧ (s.setAttempt a).store = s.store ∧ (s.setAttempt a).commit.isNone = s.commit.isNone := by
  unfold State.setAttempt
  split
  · exact ⟨rfl, rfl, rfl⟩
  · split
    · rename_i hc
      exact ⟨rfl, rfl, by rw [hc]; rfl⟩
    · exact ⟨rfl, rfl, rfl⟩

theorem State.issueLoad_owner (s : State) : s.issueLoad.owner = s.owner ∧ s.issueLoad.store = s.store ∧
    s.issueLoad.commit.isNone = s.commit.isNone := by
  unfold State.issueLoad
  split
  · exact ⟨rfl, rfl, rfl⟩
  · split
    · exact ⟨rfl, rfl, rfl⟩
    · exact s.setAttempt_owner _

/-- The grant of an engine request leaves no grant undone. -/
theorem Whole.grantEngine_settled (h : Whole s) (he : s.engineReq ≠ none) : s.grantEngine.settled := by
  obtain ⟨held, hcore, hok⟩ := h
  unfold State.grantEngine
  split
  · exact absurd ‹_› he
  · rename_i he
    have hqueue := hcore.queued he
    unfold State.snapshot
    split
    · exact absurd ‹_› hqueue
    · rename_i i later _
      refine State.settled_of_owner ?_ fun _ _ hn => ?_
      · rw [(State.issueLoad_owner _).1]
        nofun
      · have := (State.issueLoad_owner _).2.2.symm.trans (congrArg Option.isNone hn)
        cases this
  · rename_i he
    have hs : s.store.state = .degraded := (hok.format (.inr he)).1
    refine State.settled_of_owner ?_ fun hw => ?_
    · rw [(State.issueLoad_owner _).1]
      nofun
    · have hstore := (State.issueLoad_owner { s with owner := .mapWriter, engineReq := none, fairness := 0 }).2.1
      rw [State.works, hstore] at hw
      rcases hw with hw | hw <;> exact nomatch hs.symm.trans hw

theorem State.offer_offered (s : State) (hw : s.offer.works) (hq : s.offer.queue ≠ []) (hc : s.offer.commit = none) : s.offer.engineReq ≠ none := by
  rw [State.offer_eq] at hw hq hc ⊢
  split
  · nofun
  · rename_i hcond
    rw [if_neg hcond] at hw hq hc
    exact fun he => hcond ⟨hw, hq, hc, he⟩

theorem Whole.arbitrate_settled {n : Nat} (h : Whole s) (hn : s.requests.length < n) : (State.arbitrate n s).settled := by
  induction n generalizing s with
  | zero => exact absurd hn (Nat.not_lt_zero _)
  | succ n ih =>
    have hm := h.offer
    have hoffered := s.offer_offered
    rw [← s.offer_requests] at hn
    unfold State.arbitrate
    dsimp only
    split
    · rename_i hf
      exact ⟨fun ht => (nomatch hf.symm.trans ht), hoffered⟩
    · rename_i hf
      split
      · rename_i hreq
        exact hm.grantEngine_settled (Option.isSome_iff_ne_none.1 hreq.1)
      · split
        · rename_i r rest hr
          refine ih (hm.grantRequest (eq_true_of_ne_false hf) hr) ?_
          rw [State.grantRequest_requests, hr]
          rw [hr] at hn
          exact Nat.lt_of_succ_lt_succ hn
        · rename_i hr
          split
          · exact hm.grantEngine_settled (Option.isSome_iff_ne_none.1 ‹_›)
          · rename_i he
            exact ⟨fun _ => ⟨hr, Option.not_isSome_iff_eq_none.1 he⟩, hoffered⟩

theorem Whole.finish_settled (h : Whole s) : s.finish.settled := h.arbitrate_settled (Nat.lt_succ_self _)

end Sys2Proof.Machine

/-! PROOF. The ends of granted reads and the events of the host ports and of the seal logic keep the part sound (chapters 2, 3, 5). -/

namespace Sys2Proof.Machine

variable {s u : State} {i j : SlotIx} {p q : PortId} {acc : Access} {k : Ctx} {held : OffsetSet} {c : Control} {h' : HostPort}

/-! ### What an event keeps -/

/-- An event's next state is sound, and no grant is left undone. -/
structure Kept (s u : State) : Prop where
  whole : Whole u
  settled : s.settled → u.settled

theorem Whole.finished (h : Whole u) : Kept s u.finish := ⟨h.finish, fun _ => h.finish_settled⟩

theorem State.settled_congr (hcontrol : u.control = s.control) (hcondition : u.condition = s.condition) (hrequests : u.requests = s.requests)
    (hqueue : u.queue = s.queue) (h : s.settled) : u.settled := by
  have hd : u.driven = s.driven := congrArg Control.driven hcontrol
  have ho : u.owner = s.owner := congrArg Control.owner hcontrol
  have hs : u.store.state = s.store.state := congrArg Control.store hcontrol
  have he : u.engineReq = s.engineReq := congrArg Control.engineReq hcontrol
  have hc : u.commit = s.commit := congrArg Control.commit hcontrol
  simpa only [State.settled, State.arrayFree, State.works, hd, ho, hs, he, hc, hcondition, hrequests, hqueue] using h

/-- An event that grants nothing and changes neither requests, queue nor condition. -/
theorem Whole.calm (h : Whole s) (hcontrol : u.control = s.control := by rfl)
    (hcore : ∀ k : Ctx, Core k s → Core k u := by exact fun _ hc => hc.congr)
    (hcondition : u.condition = s.condition := by rfl) (hrequests : u.requests = s.requests := by rfl) (hqueue : u.queue = s.queue := by rfl) :
    Kept s u :=
  ⟨h.mono hcontrol fun k _ => hcore k, State.settled_congr hcontrol hcondition hrequests hqueue⟩

theorem Whole.tick (h : Whole s) (t : Time) : Whole (s.tick t) := h.mono rfl fun _ _ hc => hc.congr

/-- An event whose premise does not hold. -/
theorem Whole.ticked (h : Whole s) (t : Time) : Kept s (s.tick t) := h.calm

/-- What an event does at its moment. -/
theorem Kept.of_tick {t : Time} (h : Kept (s.tick t) u) : Kept s u := ⟨h.whole, fun hs => h.settled hs⟩

/-- An operation of the access unit. -/
theorem Whole.access (h : Whole s) (hframe : OnlyAccess s u) (hcore : ∀ k : Ctx, (∀ p, ¬k.loose p) → Core k s → Core k u) : Whole u :=
  h.mono hframe.control hcore

theorem Whole.serveWaiting (h : Whole s) : Whole s.serveWaiting := h.access s.serveWaiting_frame fun _ hk hc => hc.serveWaiting hk

/-! ### The end of a granted read -/

/-- The hold begins; an orphaned read has ended by then (R127, R140). -/
theorem Whole.beginHold (h : Whole s) (hready : s.holdReady = true) : Whole (State.beginHold { s with reading := none }) := by
  obtain ⟨held, hcore, hok⟩ := h
  simp only [State.holdReady, Bool.and_eq_true, decide_eq_true_eq] at hready
  obtain ⟨⟨⟨hr, hs⟩, hp⟩, -⟩ := hready
  exact .intro held hcore.drop.congr rfl rfl id (fun _ => id) (hok.beginHold hs hp hr)

theorem Whole.tryHold (h : Whole s) : Whole s.tryHold := by
  unfold State.tryHold
  split
  · rename_i hcond
    rw [Bool.and_eq_true] at hcond
    have hsame : ({ s with reading := none } : State) = s := by rw [← Option.isNone_iff_eq_none.1 hcond.2]
    have hm := h.beginHold hcond.1
    rwa [hsame] at hm
  · exact h

/-- The granted read has ended, its result awaited no more. -/
theorem Whole.endReading {g : Reading} (hcore : Core { s.ctx held with awaited := none } s) (hok : s.control.Ok held) (hg : s.reading = some g) :
    Whole s.endReading := by
  have hend : ∀ b : Bool, (b = false → s.driven = false ∨ s.store.state = .quiesced) →
    Whole { s with owner := .none, reading := none, driven := b } :=
    fun b hb => .intro held hcore.congr rfl rfl id (fun _ => id) (hok.endRead hg hb)
  unfold State.endReading
  dsimp only
  split
  · exact hend false fun _ => .inr ‹_›
  · exact (hend s.driven .inl).tryHold

theorem Core.landReading (h : Core (s.ctx held) s) {g : Reading} (hg : s.reading = some g) (hk : g.kind = .fill i) :
    Core { s.ctx held with awaited := none } (s.landReading i g) := by
  unfold State.landReading
  split
  · exact h.drop
  · rename_i hd
    have hawaited : s.awaited = some (.fill i) := by simp [State.awaited, hg, hd, hk]
    have hc : Core { { s.ctx held with awaited := none } with awaited := some (.fill i) } s := by
      rw [← hawaited]
      exact h
    exact hc.completeFill _ _

theorem State.landReading_frame (s : State) (i : SlotIx) (g : Reading) : OnlyAccess s (s.landReading i g) := by
  unfold State.landReading
  split
  · exact .refl s
  · exact s.completeFill_frame i _ _

theorem exec_fillCompletion_kept (h : Whole s) (t : Time) (worn : List Host.Cell) (hu : execFillCompletion t worn s = .next u) : Kept s u := by
  obtain rfl := Host.Outcome.next.inj hu
  split
  · rename_i g hg
    split
    · rename_i i hk
      obtain ⟨held, hcore, hok⟩ := h.tick t
      have hm : Core (((s.tick t).observe worn).ctx held) ((s.tick t).observe worn) := hcore.congr
      have hframe := (((s.tick t).observe worn).landReading_frame i g).trans (State.serveWaiting_frame _)
      have hcontrol := hframe.control
      refine (Whole.endReading (held := held) ?_ (hcontrol ▸ hok) ((congrArg Control.reading hcontrol).trans hg)).finished
      rw [State.ctx_congr hcontrol]
      exact (hm.landReading hg hk).serveWaiting fun _ => id
    · exact h.ticked t
    · exact h.ticked t
  · exact h.ticked t

/-! ### The ends of bypass reads -/

/-- A granted read whose result is awaited has the owner that it names. -/
theorem Control.Ok.owner_of_awaited (h : s.control.Ok held) {r : Request} (hr : s.awaited = some r) :
    s.owner = (match r with | .fill i => .fill i | .bypass p => .bypass p) := by
  obtain ⟨g, hg, hd, hkind⟩ := State.awaited_cases hr
  rcases h.reading.1 g hg with ⟨hdrop, -⟩ | ⟨i, hk, ho⟩ | ⟨hk, ho⟩ | ⟨hk, ho⟩
  · exact nomatch hd.symm.trans hdrop
  all_goals
    rcases hkind with ⟨j, rfl, hj⟩ | ⟨p, rfl, hj⟩ <;> cases hk.symm.trans hj <;> exact ho

theorem State.deliverBypass_frame (s : State) (p : PortId) (g : Reading) : OnlyAccess s (s.deliverBypass p g) := by
  unfold State.deliverBypass
  split
  · exact .refl s
  · split
    · exact s.answer_frame p _
    · exact .refl s

theorem Core.deliverBypass (h : Core (s.ctx held) s) {g : Reading} (hg : s.reading = some g) (hk : g.kind = .bypass p) :
    Core { s.ctx held with awaited := none } (s.deliverBypass p g) := by
  unfold State.deliverBypass
  split
  · exact h.drop
  · rename_i hd
    have hawaited : s.awaited = some (.bypass p) := by simp [State.awaited, hg, hd, hk]
    have hmem : Request.bypass p ∈ (s.ctx held).awaited.toList := Option.mem_toList.2 hawaited
    have hstate := (h.port p id).bypass (List.mem_append_left _ hmem)
    have hnot : Request.bypass p ∉ s.requests := fun hin => (List.nodup_append.1 h.nodup).2.2 _ hmem _ hin rfl
    have hleft : Core (({ s.ctx held with awaited := none } : Ctx).loosen p) s :=
      h.leaveBypass id hstate (a := none) (l := s.requests) (List.sublist_append_right _ _) hnot
    split
    · exact Ctx.tight_loosen (k := { s.ctx held with awaited := none }) (p := p) id ▸ hleft.answer (.inr rfl) _
    · exact h.drop

theorem exec_bypassCompletion_kept (h : Whole s) (t : Time) (worn : List Host.Cell) (hu : execBypassCompletion t worn s = .next u) : Kept s u := by
  obtain rfl := Host.Outcome.next.inj hu
  split
  · rename_i g hg
    split
    · rename_i p hk
      obtain ⟨held, hcore, hok⟩ := h.tick t
      have hm : Core (((s.tick t).observe worn).ctx held) ((s.tick t).observe worn) := hcore.congr
      have hcontrol := (((s.tick t).observe worn).deliverBypass_frame p g).control
      refine (Whole.endReading (held := held) ?_ (hcontrol ▸ hok) ((congrArg Control.reading hcontrol).trans hg)).finished
      rw [State.ctx_congr hcontrol]
      exact hm.deliverBypass hg hk
    · exact h.ticked t
    · exact h.ticked t
  · exact h.ticked t

/-! ### Handshakes and arrivals -/

/-- A port whose state, access, stall deadline and waited slot stand. -/
structure HostPort.Same (h h' : HostPort) : Prop where
  state : h'.state = h.state := by rfl
  access : h'.access = h.access := by rfl
  stall : h'.stall = h.stall := by rfl
  waited : h'.waited = h.waited := by rfl

theorem Core.samePort (h : Core k s) (hsame : (s.port p).Same h') : Core k (s.setPort p h') := by
  have hport := State.port_setPort_same s p h'
  obtain ⟨hstate, haccess, hstall, hwaited⟩ := hsame
  refine h.portUpdate (s.setPort_update p h' k.awaited) (fun _ _ => Iff.rfl) (fun hp => ?_) fun hp => ?_
  · obtain ⟨hf, hs, hw, hb⟩ := h.port p hp
    rw [State.wanted_setPort]
    refine ⟨?_, ?_, fun j => ?_, ?_⟩
    · rwa [hport, HostPort.fieldsOk, hstate, haccess, hstall, hwaited]
    · rwa [hport, haccess]
    · rw [hport, haccess, hwaited, State.slot_setPort]
      exact hw j
    · rwa [hport, hstate]
  · obtain ⟨ha, hw, hb⟩ := h.loose p hp
    rw [State.wanted_setPort]
    exact ⟨by rwa [hport, haccess], fun j => by rw [State.slot_setPort]; exact hw j, hb⟩

theorem Core.quietPort (h : Core k s) (hp : ¬k.loose p) (hidle : (s.port p).state = .idle) (hidled : h'.Idled) : Core k (s.setPort p h') := by
  obtain ⟨haccess, hstall, hwaited⟩ := (h.port p hp).fields
  exact h.samePort { state := hidled.state.trans hidle.symm, access := hidled.access.trans (haccess.2 hidle).symm
                     stall := hidled.stall.trans (hstall.2 hidle).symm
                     waited := hidled.waited.trans (hwaited.2 (by rw [hidle]; nofun)).symm }

theorem Whole.samePort (h : Whole s) (hsame : (s.port p).Same h') : Kept s (s.setPort p h') :=
  h.calm (s.setPort_frame p h').control (fun _ hc => hc.samePort hsame) (by cases p <;> rfl) (by cases p <;> rfl) (by cases p <;> rfl)

theorem State.arrivalCheck_none_size (h : s.arrivalCheck acc = none) : acc.size ≠ 3 := by
  intro h3
  unfold State.arrivalCheck at h
  rw [if_pos h3] at h
  split at h <;> cases h

theorem State.takeAccess_answers (s : State) (p : PortId) (acc : Access) :
    (∃ h', h'.Idled ∧ (s.takeAccess p acc).answerNotReady p = { s.setPort p h' with arrivals := s.arrivals + 1 }) ∧
      ∀ reason detail, ∃ h', h'.Idled ∧ (s.takeAccess p acc).answerError p reason detail = { s.setPort p h' with arrivals := s.arrivals + 1 } := by
  cases p with
  | a => exact ⟨⟨_, .present _ _ _ _, rfl⟩, fun _ _ => ⟨_, .present _ _ _ _, rfl⟩⟩
  | b => exact ⟨⟨_, .present _ _ _ _, rfl⟩, fun _ _ => ⟨_, .present _ _ _ _, rfl⟩⟩

theorem Core.arrive (h : Core k s) (hp : ¬k.loose p) (hidle : (s.port p).state = .idle) : Core k (s.arrive p acc) := by
  obtain ⟨⟨ready, hready, hnotReady⟩, herror⟩ := s.takeAccess_answers p acc
  have hquiet : ∀ h' : HostPort, h'.Idled → Core k { s.setPort p h' with arrivals := s.arrivals + 1 } := fun h' hh =>
    (h.quietPort hp hidle hh).congr
  unfold State.arrive
  dsimp only
  split
  · exact hnotReady ▸ hquiet ready hready
  · rename_i reason detail _ _
    obtain ⟨h', hh, he⟩ := herror reason detail
    exact he ▸ hquiet h' hh
  · rename_i hcheck
    have hsize := State.arrivalCheck_none_size hcheck
    have htaken : Core (k.loosen p) (s.takeAccess p acc) := (h.take hp hidle (acc := acc) rfl hsize).congr
    have hacc : ((s.takeAccess p acc).port p).access = some acc := by
      unfold State.takeAccess State.modPort
      cases p <;> rfl
    split
    · exact Ctx.tight_loosen hp ▸ htaken.writePath (.inr rfl) hacc
    · exact Ctx.tight_loosen hp ▸ htaken.readPath (.inr rfl) hacc

theorem State.arrive_control (s : State) (p : PortId) (acc : Access) : (s.arrive p acc).control = s.control := by
  have htaken : (s.takeAccess p acc).control = s.control := by cases p <;> rfl
  unfold State.arrive
  dsimp only
  rw [← htaken]
  split
  · exact (State.answerNotReady_frame _ p).control
  · exact (State.answerError_frame _ p _ _).control
  · split
    · exact (State.writePath_frame _ p acc).control
    · exact (State.readPath_frame _ p acc).control

theorem exec_accessArrival_kept (h : Whole s) (t : Time) (p : PortId) (wr : Bool) (addr : BitVec 17) (size : BitVec 2) (wd : BitVec 32)
    (hu : execAccessArrival t p wr addr size wd s = .next u) : Kept s u := by
  obtain rfl := Host.Outcome.next.inj hu
  refine Kept.of_tick (t := t) ?_
  have hm := h.tick t
  split
  · exact hm.samePort {}
  · rename_i hidle
    split
    · split
      · exact hm.samePort {}
      · exact hm.calm
    · split
      · exact hm.calm
      · exact (hm.mono ((s.tick t).arrive_control p _) fun _ hk hc => hc.arrive (hk p) (Classical.not_not.1 hidle)).finished

theorem exec_reqRemoved_kept (h : Whole s) (t : Time) (p : PortId) (hu : execReqRemoved t p s = .next u) : Kept s u := by
  obtain rfl := Host.Outcome.next.inj hu
  refine Kept.of_tick (t := t) ((h.tick t).samePort ?_)
  dsimp only
  split
  · exact {}
  · exact {}

theorem exec_rdyPulseEnd_kept (h : Whole s) (t : Time) (p : PortId) (hu : execRdyPulseEnd t p s = .next u) : Kept s u := by
  obtain rfl := Host.Outcome.next.inj hu
  refine Kept.of_tick (t := t) ?_
  split
  · exact (h.tick t).samePort {}
  · exact (h.tick t).calm

end Sys2Proof.Machine

/-! PROOF. Stall expiry, the events of the seal logic, and the management port's bytes keep the part sound (chapters 2, 3, 10). -/

namespace Sys2Proof.Machine

variable {s u : State} {i j : SlotIx} {p q : PortId} {k : Ctx} {held : OffsetSet} {c : Control}

/-! ### Stall expiry -/

theorem State.expireFill_frame (s : State) (p : PortId) (i : SlotIx) : OnlyAccess s (s.expireFill p i) := by
  have hm := (s.modSlot_frame i fun x => x.setWait p none).toOnlyAccess
  unfold State.expireFill
  dsimp only
  split
  · exact ((hm.trans (State.withdrawFill_frame _ i)).trans (State.releaseIfEmpty_frame _ i).toOnlyAccess).trans (State.answerError_frame _ p _ _)
  · exact hm.trans (State.answerError_frame _ p _ _)

theorem State.dropReading_control (s : State) :
    s.dropReading.control = { s.control with reading := s.reading.map fun g => { g with dropped := true } } := by
  unfold State.dropReading
  cases s.reading <;> rfl

theorem State.expireBypass_control (s : State) (p : PortId) : (s.expireBypass p).control = s.control ∨
    (s.expireBypass p).control = s.dropReading.control := by
  unfold State.expireBypass
  dsimp only
  rw [(State.answerError_frame _ p _ _).control]
  split
  · exact .inl rfl
  · split
    · exact .inr rfl
    · exact .inl rfl

theorem Whole.expireBypass (h : Whole s) (hstate : (s.port p).state = .waitBypass) : Whole (s.expireBypass p) := by
  obtain ⟨held, hcore, hok⟩ := h
  have hc := Core.expireBypass (k := s.ctx held) hcore id hstate fun ha => hok.owner_of_awaited ha
  have hd := s.dropReading_control
  rcases s.expireBypass_control p with he | he
  · exact .intro held hc rfl (by rw [show (s.expireBypass p).commit = s.commit from congrArg Control.commit he]; rfl)
      (by rw [show (s.expireBypass p).engineReq = s.engineReq from congrArg Control.engineReq he]; exact id) (fun _ => id) (he ▸ hok)
  · have he := he.trans hd
    exact .intro held hc rfl (by rw [show (s.expireBypass p).commit = s.commit from congrArg Control.commit he]; rfl)
      (by rw [show (s.expireBypass p).engineReq = s.engineReq from congrArg Control.engineReq he]; exact id) (fun _ => id) (he ▸ hok.dropRead)

theorem exec_stallExpiry_kept (h : Whole s) (t : Time) (p : PortId) (hu : execStallExpiry t p s = .next u) : Kept s u := by
  obtain rfl := Host.Outcome.next.inj hu
  refine Kept.of_tick (t := t) ?_
  have hm := h.tick t
  split
  · split
    · rename_i i hstate hwaited
      refine (hm.access ((State.expireFill_frame _ p i).trans (State.serveWaiting_frame _)) fun k hk hc => ?_).finished
      have hacc : ((s.tick t).port p).access ≠ none := fun hn => nomatch hstate.symm.trans ((hc.port p (hk p)).fields.1.1 hn)
      exact (hc.expireFill (hk p) hwaited hacc).serveWaiting hk
    · exact (hm.expireBypass ‹_›).serveWaiting.finished
    · rename_i hstate
      refine (hm.access ((State.answerError_frame _ p _ _).trans (State.serveWaiting_frame _)) fun k hk hc => ?_).finished
      exact (Ctx.tight_loosen (hk p) ▸ (hc.loosenWrite (hk p) hstate).answerError (.inr rfl) .stallExpired .slot).serveWaiting hk
    · exact hm.calm
  · exact hm.calm

/-! ### Seals -/

theorem Whole.sealNamed (h : Whole s) (i : SlotIx) : Whole (s.sealNamed i) := h.access (s.sealNamed_frame i).toOnlyAccess fun _ _ hc => hc.sealNamed i

theorem Whole.sealAll (h : Whole s) : Whole s.sealAll := h.access s.sealAll_frame.toOnlyAccess fun _ _ hc => hc.sealAll

theorem exec_settleExpiry_kept (h : Whole s) (t : Time) (i : SlotIx) (hu : execSettleExpiry t i s = .next u) : Kept s u := by
  obtain rfl := Host.Outcome.next.inj hu
  split
  · exact ((h.tick t).sealNamed i).finished
  · exact h.ticked t

theorem exec_ageExpiry_kept (h : Whole s) (t : Time) (i : SlotIx) (hu : execAgeExpiry t i s = .next u) : Kept s u := by
  obtain rfl := Host.Outcome.next.inj hu
  split
  · exact ((h.tick t).sealNamed i).finished
  · exact h.ticked t

theorem exec_flushRisingEdge_kept (h : Whole s) (t : Time) (hu : execFlushRisingEdge t s = .next u) : Kept s u := by
  obtain rfl := Host.Outcome.next.inj hu
  split
  · exact ((h.tick t).calm (u := { s.tick t with flushSeen := true })).whole.sealAll.finished
  · exact h.ticked t

theorem exec_flushFallingEdge_kept (h : Whole s) (t : Time) (hu : execFlushFallingEdge t s = .next u) : Kept s u := by
  obtain rfl := Host.Outcome.next.inj hu
  refine Kept.of_tick (t := t) ?_
  split
  · exact (h.tick t).calm
  · exact (h.tick t).calm

theorem exec_pfwAssertionEdge_kept (h : Whole s) (t : Time) (hu : execPfwAssertionEdge t s = .next u) : Kept s u := by
  obtain rfl := Host.Outcome.next.inj hu
  split
  · exact (((h.tick t).calm (u := { s.tick t with pfw := true })).whole.sealAll.access (State.refuseWrites_frame _ _ _) fun _ hk hc =>
      hc.refuseWrites hk _ _).finished
  · exact h.ticked t

theorem exec_pfwDeassertionEdge_kept (h : Whole s) (t : Time) (hu : execPfwDeassertionEdge t s = .next u) : Kept s u := by
  obtain rfl := Host.Outcome.next.inj hu
  refine Kept.of_tick (t := t) ?_
  split
  · exact (h.tick t).calm
  · exact (h.tick t).calm

/-! ### The bytes of the bus -/

/-- The management port's record, but for the long command, stands apart. -/
theorem Whole.modMgmt (h : Whole s) {f : MgmtPort → MgmtPort} (hf : (f s.mgmt).long = s.mgmt.long) : Kept s (s.modMgmt f) := by
  refine h.calm ?_
  show { s.control with long := (f s.mgmt).long } = s.control
  rw [hf]
  rfl

theorem exec_misplacedCondition_kept (h : Whole s) (t : Time) (stop : Bool) (hu : execMisplacedCondition t stop s = .next u) : Kept s u := by
  obtain rfl := Host.Outcome.next.inj hu
  refine Kept.of_tick (t := t) ?_
  split
  · exact (h.tick t).modMgmt (by cases stop <;> rfl)
  · exact (h.tick t).calm

theorem MgmtPort.address_long (q : MgmtPort) (own : BitVec 7) (byte : Byte) : (q.address own byte).long = q.long := by
  unfold MgmtPort.address
  dsimp only
  repeat' split
  all_goals rfl

theorem exec_addressByte_kept (h : Whole s) (t : Time) (byte : Byte) (hu : execAddressByte t byte s = .next u) : Kept s u := by
  obtain rfl := Host.Outcome.next.inj hu
  refine Kept.of_tick (t := t) ?_
  split
  · exact (h.tick t).modMgmt (MgmtPort.address_long _ _ _)
  · exact (h.tick t).calm

theorem exec_dataByte_kept (h : Whole s) (t : Time) (byte : Byte) (hu : execDataByte t byte s = .next u) : Kept s u := by
  obtain rfl := Host.Outcome.next.inj hu
  refine Kept.of_tick (t := t) ?_
  split
  · refine (h.tick t).modMgmt ?_
    unfold MgmtPort.takeByte
    split <;> rfl
  · exact (h.tick t).calm

theorem exec_responseByte_kept (h : Whole s) (t : Time) (ack : Bool) (hu : execResponseByte t ack s = .next u) : Kept s u := by
  obtain rfl := Host.Outcome.next.inj hu
  refine Kept.of_tick (t := t) ?_
  split
  · refine (h.tick t).modMgmt ?_
    split <;> rfl
  · exact (h.tick t).calm

theorem exec_generalCallByte_kept (h : Whole s) (t : Time) (byte : Byte) (hu : execGeneralCallByte t byte s = .next u) : Kept s u := by
  obtain rfl := Host.Outcome.next.inj hu
  refine Kept.of_tick (t := t) ?_
  split
  · refine (h.tick t).modMgmt ?_
    unfold MgmtPort.takeGeneral
    split <;> rfl
  · exact (h.tick t).calm

theorem exec_generalCallFlush_kept (h : Whole s) (t : Time) (hu : execGeneralCallFlush t s = .next u) : Kept s u := by
  obtain rfl := Host.Outcome.next.inj hu
  split
  · exact (h.tick t).sealAll.finished
  · exact h.ticked t

end Sys2Proof.Machine

/-! PROOF. The store's entries and the ends of commits and formats keep the part sound (R77 to R82, R111 to R116, R135, R136, R143 to
R150). -/

namespace Sys2Proof.Machine

variable {s u : State} {i j : SlotIx} {p q : PortId} {k : Ctx} {held : OffsetSet} {c : CommitRecord} {d : Control}

/-! ### The record after the store's entries -/

theorem State.endLong_control (s : State) (long : LongCommand) : (s.endLong long).control =
    { s.control with long := if s.mgmt.long = long then .none else s.mgmt.long } := by
  rw [State.endLong_eq]
  rfl

theorem State.enterRunning_control (s : State) : s.enterRunning.control = { s.control with store := .running, phase := none } :=
  (State.enterRunning_slots s).toOnlyAccess.control

theorem State.enterDegraded_control (s : State) (cause : Cause) : (s.enterDegraded cause).control =
    { s.control with store := .degraded, phase := none, long := if s.mgmt.long = .quiesce then .none else s.mgmt.long } := by
  have hsteps : ∀ m : State, ((m.clearDeadlines.refuseWrites .storeFull .degraded).endLong .quiesce).control =
      { m.control with long := if m.mgmt.long = .quiesce then .none else m.mgmt.long } := fun m => by
    have hframe := m.clearDeadlines_frame.toOnlyAccess.trans (State.refuseWrites_frame _ .storeFull .degraded)
    rw [State.endLong_control, hframe.control, hframe.keeps (f := State.mgmt) fun _ => rfl]
  cases cause with
  | arrayTimeout => exact (State.withdrawAll_frame _ _).control.trans (hsteps _)
  | mapInvalid => exact hsteps _
  | mapWriteFail => exact hsteps _

theorem State.enterQuiesced_control (s : State) : s.enterQuiesced.control =
    { s.control with store := .quiesced, long := if s.mgmt.long = .quiesce then .none else s.mgmt.long
                     driven := if s.owner = .none then false else s.driven } := by
  have hframe := ((s.inQuiesced.withdrawAll_frame .quiesced).trans (State.serveWaiting_frame _)).trans
    (State.refuseWrites_frame _ .storeFull .quiesced)
  have hrelease : ∀ (n : State) (d : Control), n.control = d → (if n.owner = .none then n.releasePort else n).control =
      { d with driven := if d.owner = .none then false else d.driven } := fun n d hn => by
    subst hn
    show _ = { n.control with driven := if n.owner = Owner.none then false else n.driven }
    split <;> rfl
  have hlong := State.endLong_control (((s.inQuiesced.withdrawAll .quiesced).serveWaiting).refuseWrites .storeFull .quiesced) .quiesce
  rw [hframe.control, hframe.keeps (f := State.mgmt) fun _ => rfl] at hlong
  exact hrelease _ _ hlong

/-! ### QUIESCED -/

/-- The record changes, but for the granted read, the commit and the engine request. -/
theorem Whole.recontrol (hcore : Core (s.ctx held) u) (hcontrol : u.control = d) (ok : d.Ok held) (reading : d.reading = s.reading := by rfl)
    (commit : d.commit = s.commit := by rfl) (engineReq : d.engineReq = s.engineReq := by rfl) : Whole u := by
  have hr : u.reading = s.reading := (congrArg Control.reading hcontrol).trans reading
  have hc : u.commit = s.commit := (congrArg Control.commit hcontrol).trans commit
  have he : u.engineReq = s.engineReq := (congrArg Control.engineReq hcontrol).trans engineReq
  refine .intro held hcore ?_ (by rw [hc]; rfl) (by rw [he]; exact id) (fun _ => id) (hcontrol ▸ ok)
  show u.awaited = s.awaited
  unfold State.awaited
  rw [hr]

theorem Whole.enterQuiesced (h : Whole s) (hw : s.works) (hc : s.commit = none) (hq : s.queue = []) : Whole s.enterQuiesced := by
  obtain ⟨held, hcore, hok⟩ := h
  exact .recontrol (hcore.enterQuiesced fun _ => id) s.enterQuiesced_control (hok.quiesce hw hc (fun he => hcore.queued he hq) _)

theorem Whole.drainCheck (h : Whole s) : Whole s.drainCheck := by
  unfold State.drainCheck
  split
  · rename_i hcond
    obtain ⟨hs, hq, hc⟩ := hcond
    exact h.enterQuiesced (.inr hs) hc hq
  · exact h

/-! ### The end of a commit -/

/-- The commit is over: its slot stands in another state, and the array is released (R78). -/
theorem Whole.endCommit (h : Core k s) (hk : k.awaited = none ∧ k.commit = none) (loose : ∀ p, ¬k.loose p)
    (hidle : Control.Idle { s.control with commit := none, writer := none, owner := .none }) : Whole s.endCommit :=
  (Whole.idle (u := { s with commit := none, writer := none, owner := .none }) h.congr hk loose hidle).serveWaiting.drainCheck

theorem State.recovered_steps (s : State) (c : CommitRecord) : (s.recovered c).control = s.control ∧ ∀ k, Core k s → Core k (s.recovered c) := by
  unfold State.recovered
  split
  · exact ⟨rfl, fun _ hc => hc.congr⟩
  · exact ⟨rfl, fun _ hc => hc⟩

theorem Whole.commitSucceeded (h : Core k s) (ha : k.awaited = none) (hc : k.commit.map Held.slot = some c.slot) (loose : ∀ p, ¬k.loose p)
    (hidle : Control.Idle { s.control with commit := none, writer := none, owner := .none }) : Whole (s.commitSucceeded c) := by
  obtain ⟨hcontrol, hcore⟩ := (s.leaveCommitting c.slot).recovered_steps c
  refine Whole.endCommit (hcore _ (h.leaveCommitting hc)) ⟨ha, rfl⟩ loose ?_
  rw [hcontrol, (s.leaveCommitting_frame c.slot).toOnlyAccess.control]
  exact hidle

/-- The slot of the commit is PINNED with bytes that it holds (R81, R115). -/
theorem Whole.commitPinned (h : Core k s) (ha : k.awaited = none) (hc : k.commit.map Held.slot = some c.slot) (loose : ∀ p, ¬k.loose p)
    {add : OffsetSet} (hadd : add ≠ 0) (hsub : add &&& (s.slot c.slot).present = add) (cause : Byte)
    (hidle : Control.Idle { s.control with commit := none, writer := none, owner := .none }) :
    Whole ((s.pin c.slot add).logPinned c cause).endCommit := by
  refine Whole.endCommit (k := { k with commit := none }) (h.pin hc hadd hsub).congr ⟨ha, rfl⟩ loose ?_
  show Control.Idle { (s.pin c.slot add).control with commit := none, writer := none, owner := .none }
  rw [(s.pin_frame c.slot add).toOnlyAccess.control]
  exact hidle

/-! ### The commit in flight -/

/-- A commit in flight: no granted read is awaited, the record names the COMMITTING slot, and the offsets held are present. -/
structure State.Flying (s : State) (c : CommitRecord) (held : OffsetSet) : Prop where
  core : Core (s.ctx held) s
  ok : s.control.Ok held
  commit : s.commit = some c

theorem Whole.flying (h : Whole s) (hc : s.commit = some c) : ∃ held, s.Flying c held := by
  obtain ⟨held, hcore, hok⟩ := h
  exact ⟨held, hcore, hok, hc⟩

theorem State.Flying.whole (h : s.Flying c held) : Whole s := ⟨held, h.core, h.ok⟩

theorem State.Flying.inFlight (h : s.Flying c held) : s.control.InFlight := h.ok.inFlight h.commit

theorem State.Flying.awaited (h : s.Flying c held) : (s.ctx held).awaited = none := State.awaited_none h.inFlight.reading

theorem State.Flying.ctx_commit (h : s.Flying c held) : (s.ctx held).commit = some ⟨c.slot, c.page, held⟩ := by
  unfold State.ctx
  rw [h.commit]
  rfl

theorem State.Flying.ctx_slot (h : s.Flying c held) : (s.ctx held).commit.map Held.slot = some c.slot := by
  rw [h.ctx_commit]
  rfl

theorem State.Flying.heldOk (h : s.Flying c held) : c.HeldOk s.writer held := (h.ok.commit c h.commit).2.2.2

theorem State.Flying.present (h : s.Flying c held) : held &&& (s.slot c.slot).present = held := (h.core.held _ h.ctx_commit).2.2

theorem State.Flying.idle (h : s.Flying c held) : Control.Idle { s.control with commit := none, writer := none, owner := .none } :=
  h.ok.endCommit h.commit s.store.state (ph := s.store.phase) h.inFlight.phase s.mgmt.long

/-- Changes that keep the record and the core keep the commit in flight. -/
theorem State.Flying.mono (h : s.Flying c held) (hcontrol : u.control = s.control) (hcore : ∀ k : Ctx, Core k s → Core k u) : u.Flying c held :=
  ⟨State.ctx_congr hcontrol held ▸ hcore _ h.core, hcontrol ▸ h.ok, (congrArg Control.commit hcontrol).trans h.commit⟩

/-- The record of the commit changes, and with it the offsets held, perhaps, and the map writer. -/
theorem State.Flying.step (h : s.Flying c held) {c' : CommitRecord} (hslot : c'.slot = c.slot ∧ c'.page = c.page) {b : OffsetSet} (hne : b ≠ 0)
    (hsub : b &&& (s.slot c.slot).present = b) {w : Option MapWriter} (hheld : c'.HeldOk w b)
    (hw : ∀ x ∈ w, x.purpose = .retire ∨ x.purpose = .deadOnly)
    (hcore : ∀ k : Ctx, Core k s → Core k u) (hcontrol : u.control = { s.control with commit := some c', writer := w }) : u.Flying c' b := by
  have hc : u.commit = some c' := congrArg Control.commit hcontrol
  have hr : u.reading = s.reading := congrArg Control.reading hcontrol
  have he : u.engineReq = s.engineReq := congrArg Control.engineReq hcontrol
  refine ⟨?_, hcontrol ▸ h.ok.commitStep h.commit hheld hw, hc⟩
  have hctx : u.ctx b = { s.ctx held with commit := some ⟨c.slot, c.page, b⟩ } := by
    unfold State.ctx State.awaited
    rw [hc, hr, he, ← hslot.1, ← hslot.2]
    rfl
  rw [hctx]
  exact hcore _ (h.core.hold h.ctx_commit hne hsub)

end Sys2Proof.Machine

/-! PROOF. The steps of a commit, of a retirement, of a map write and of a format keep the part sound, and with them the events of the
commit engine (R70 to R82, R107 to R116, R131 to R136). -/

namespace Sys2Proof.Machine

variable {s u : State} {i j : SlotIx} {p q : PortId} {k : Ctx} {held failing : OffsetSet} {c c' : CommitRecord} {w : MapWriter} {sp : SpareIx}

/-! ### Retirement -/

theorem fullSet_ne_zero : fullSet ≠ 0 := by decide

theorem State.Flying.full (h : s.Flying c held) (hfull : held = fullSet) : fullSet &&& (s.slot c.slot).present = fullSet := hfull ▸ h.present

/-- The record of the commit changes while no map write is under way. -/
theorem State.Flying.recommit (h : s.Flying c held) (hw : s.writer = none) (hslot : c'.slot = c.slot ∧ c'.page = c.page) {b : OffsetSet}
    (hne : b ≠ 0) (hsub : b &&& (s.slot c.slot).present = b) (hheld : c'.HeldOk none b) : State.Flying { s with commit := some c' } c' b :=
  h.step hslot hne hsub hheld (forall_mem_none rfl) (fun _ hc => hc.congr) (by
    show _ = { s.control with commit := some c', writer := none }
    rw [← hw]
    rfl)

/-- The spare snapshot of a slot with every byte present (R109). -/
theorem State.Flying.spareSnapshot (h : s.Flying c fullSet) (hw : s.writer = none) (hslot : c'.slot = c.slot ∧ c'.page = c.page) (sp : SpareIx) :
    Whole (s.spareSnapshot c' sp) := by
  have hcontrol := (s.modSlot_frame c.slot fun x => { x with dirty := 0, dirtySince := none }).toOnlyAccess.control
  have hm : State.Flying (s.modSlot c.slot fun x => { x with dirty := 0, dirtySince := none }) c fullSet :=
    ⟨State.ctx_congr hcontrol _ ▸ h.core.clearDirty h.ctx_slot, hcontrol ▸ h.ok, h.commit⟩
  unfold State.spareSnapshot
  dsimp only
  rw [hslot.1]
  generalize (s.modSlot c.slot fun x => { x with dirty := 0, dirtySince := none }) = m at *
  have hspare : ∀ a, Whole { m with commit := some { c' with slot := c.slot, phase := .spareLoad, attempt := a, spare := some sp } } := fun a =>
    (hm.recommit (c' := { c' with slot := c.slot, phase := .spareLoad, attempt := a, spare := some sp }) ((congrArg Control.writer hcontrol).trans hw)
      ⟨rfl, hslot.2⟩ fullSet_ne_zero hm.present ⟨nofun, nofun, fun _ => ⟨rfl, rfl⟩, nofun⟩).whole
  exact (hspare _).issueLoad

theorem State.Flying.startMapWrite (h : s.Flying c fullSet) (hslot : c'.slot = c.slot ∧ c'.page = c.page) {purpose : MapPurpose}
    (hpurpose : purpose = .retire ∨ purpose = .deadOnly) : Whole (s.startMapWrite c' purpose) := by
  have hheld : ∀ w, CommitRecord.HeldOk { c' with phase := .mapWrite } (some w) fullSet := fun w => ⟨nofun, nofun, nofun, fun _ => ⟨nofun, rfl⟩⟩
  have hwriter : ∀ w : MapWriter, w.purpose = purpose → Whole { s with commit := some { c' with phase := .mapWrite }, writer := some w } :=
    fun w hw =>
    (h.step (c' := { c' with phase := .mapWrite }) hslot fullSet_ne_zero h.present (hheld w) (fun x hx => Option.some.inj hx ▸ hw ▸ hpurpose)
      (fun _ hc => hc.congr) rfl).whole
  exact (hwriter _ rfl).issueLoad

/-- With every byte present the backfill is over (R108). -/
theorem CommitRecord.HeldOk.backfilled (hp : c.phase = .retireBackfill) : c.HeldOk none fullSet where
  home := fun hh => absurd (hp.symm.trans hh) nofun
  backfill := fun _ => ⟨rfl, fullSet_ne_zero, BitVec.allOnes_or⟩
  spare := fun hh => absurd (hp.symm.trans hh) nofun
  map := fun hh => absurd (hp.symm.trans hh) nofun

theorem State.Flying.completeBackfill (h : s.Flying c held) (hp : c.phase = .retireBackfill) : Whole (s.completeBackfill c) := by
  obtain ⟨hw, -, hunion⟩ := h.heldOk.backfill hp
  have hstate := h.core.committing_state h.ctx_slot
  have hslot := State.slot_modSlot_same s c.slot fun x => x.land (fun k => s.chip.read c.attempt.target k) c.backfill
  have hland : State.Flying (s.modSlot c.slot fun x => x.land (fun k => s.chip.read c.attempt.target k) c.backfill) c held :=
    h.mono rfl fun k hc => hc.land (fun hs => nomatch hstate.symm.trans hs) _ _
  have hpresent := congrArg Slot.present hslot
  rw [Slot.land_present, union_fullSet h.present hunion] at hpresent
  have hframe := (s.modSlot c.slot fun x => x.land (fun k => s.chip.read c.attempt.target k) c.backfill).answerWaiters_frame c.slot
  have hwriter := (congrArg Control.writer hframe.control).trans hw
  unfold State.completeBackfill
  dsimp only
  generalize (s.modSlot c.slot fun x => x.land (fun k => s.chip.read c.attempt.target k) c.backfill) = m at *
  have hfull : m.Flying c fullSet := hland.step ⟨rfl, rfl⟩ fullSet_ne_zero (by rw [hpresent]; exact BitVec.and_self) (w := none) (.backfilled hp)
    (forall_mem_none rfl) (fun _ hc => hc) (by
    show _ = { m.control with commit := some c, writer := none }
    rw [← hland.commit, ← (show m.writer = none from (congrArg Control.writer hframe.control).symm.trans hwriter)]
    rfl)
  have hn := hfull.mono hframe.control fun _ hc => hc.answerWaiters c.slot
  split
  · exact hn.spareSnapshot hwriter ⟨rfl, rfl⟩ _
  · exact hn.whole

theorem State.Flying.startRetirement (h : s.Flying c held) (hw : s.writer = none) (hfail : failing ≠ 0) (hsub : failing &&& held = failing) :
    Whole (s.startRetirement c failing) := by
  have hpresent : failing &&& (s.slot c.slot).present = failing := inter_eq_left_trans hsub h.present
  have hne : (s.slot c.slot).present ≠ 0 := fun hz => hfail (by
    rw [← hpresent, hz]
    exact BitVec.and_zero)
  unfold State.startRetirement
  split
  · exact Whole.commitPinned h.core h.awaited h.ctx_slot (fun _ => id) hfail hpresent _ h.idle
  · have hm := h.recommit (c' :=
      { c with phase := .retireBackfill, attempt := { c.attempt with failing := some failing }, backfill := ~~~(s.slot c.slot).present
               homeFailing := failing }) hw ⟨rfl, rfl⟩ hne BitVec.and_self ⟨nofun, fun _ => ⟨rfl, hne, BitVec.or_not_self _⟩, nofun, nofun⟩
    dsimp only
    split
    · exact hm.completeBackfill rfl
    · exact hm.whole

/-! ### Verifies -/

theorem Attempt.failingSet_sub (a : Attempt) (f : Nat → Byte) : a.failingSet f &&& a.loadSet = a.failingSet f := by
  refine inter_eq_left_iff.2 fun n hn => ?_
  have hlt : n < 64 := BitVec.lt_of_getLsbD hn
  rw [Attempt.failingSet, setOf_getLsbD _ hlt, decide_eq_true_eq, List.mem_filter, members_iff] at hn
  exact hn.1

theorem Attempt.Within.again {a : Attempt} (hfail : failing ≠ 0) (hsub : failing &&& a.loadSet = failing) (order : List Nat) :
    (a.again failing order).Within a := ⟨fun _ => hfail, subset_iff.2 hsub⟩

theorem State.Flying.verifyHome (h : s.Flying c held) (hp : c.phase = .home) (hsub : failing &&& c.attempt.loadSet = failing) :
    Whole (s.verifyHome c failing) := by
  obtain ⟨hw, -, hload⟩ := h.heldOk.home hp
  unfold State.verifyHome
  split
  · exact Whole.commitSucceeded h.core h.awaited h.ctx_slot (fun _ => id) h.idle
  · rename_i hfail
    split
    · exact h.whole.setAttempt (State.attempt_commit hw h.commit (.inl hp)) (.again hfail hsub _)
    · exact h.startRetirement hw hfail (inter_eq_left_trans hsub (subset_iff.1 hload))

theorem State.Flying.verifySpare (h : s.Flying c held) (hp : c.phase = .spareLoad) (hsub : failing &&& c.attempt.loadSet = failing) :
    Whole (s.verifySpare c sp failing) := by
  obtain ⟨hw, rfl⟩ := h.heldOk.spare hp
  have happend : ∀ (m : State) kind logical physical count detail, m.Flying c fullSet →
    (m.append kind logical physical count detail).Flying c fullSet :=
    fun m kind logical physical count detail hm => hm.mono rfl fun _ hc => hc.congr
  unfold State.verifySpare
  split
  · unfold State.spareSuccess
    dsimp only
    split
    · refine State.Flying.startMapWrite (c := c) (happend _ _ _ _ _ _ (happend _ _ _ _ _ _ h)) ?_ (.inl rfl)
      exact ⟨rfl, rfl⟩
    · refine State.Flying.startMapWrite (c := c) (happend _ _ _ _ _ _ h) ?_ (.inl rfl)
      exact ⟨rfl, rfl⟩
  · rename_i hfail
    split
    · exact h.whole.setAttempt (State.attempt_commit hw h.commit (.inr hp)) (.again hfail hsub _)
    · unfold State.spareDeath
      dsimp only
      split
      · refine State.Flying.spareSnapshot (c := c) (happend _ _ _ _ _ _ h) hw ?_ _
        exact ⟨rfl, rfl⟩
      · refine State.Flying.startMapWrite (c := c) (happend _ _ _ _ _ _ h) ?_ (.inr rfl)
        exact ⟨rfl, rfl⟩

theorem State.Flying.map_full (h : s.Flying c held) (hw : s.writer = some w) : held = fullSet := by
  have hheld := h.heldOk
  rw [hw] at hheld
  cases hp : c.phase with
  | home => exact nomatch (hheld.home hp).1
  | retireBackfill => exact nomatch (hheld.backfill hp).1
  | spareLoad => exact nomatch (hheld.spare hp).1
  | mapWrite => exact (hheld.map hp).2

theorem State.Flying.mapWriteSucceeded (h : s.Flying c held) (hw : s.writer = some w) : Whole (s.mapWriteSucceeded c w) := by
  have hm : State.Flying ((s.adopt c).makeCurrent w) c held := h.mono rfl fun _ hc => hc.congr
  unfold State.mapWriteSucceeded
  dsimp only
  split
  · exact Whole.commitSucceeded hm.core hm.awaited hm.ctx_slot (fun _ => id) hm.idle
  · exact Whole.commitPinned hm.core hm.awaited hm.ctx_slot (fun _ => id) fullSet_ne_zero (hm.full (h.map_full hw)) _ hm.idle
  · exact hm.whole
  · exact hm.whole

theorem State.Flying.mapWriteFailed (h : s.Flying c held) (hw : s.writer = some w) : Whole (s.mapWriteFailed c w failing) := by
  have hl : State.Flying ((s.adopt c).append .mapWriteFail (some c.page) (some w.attempt.target) (some (card failing)) w.purpose.failDetail) c held :=
    h.mono rfl fun _ hc => hc.congr
  have hcore := hl.core.enterDegraded (fun _ => id) .mapWriteFail
  have hcontrol := State.enterDegraded_control ((s.adopt c).append .mapWriteFail (some c.page) (some w.attempt.target) (some (card failing))
    w.purpose.failDetail) .mapWriteFail
  have hpresent := (hcore.held _ hl.ctx_commit).2.2
  unfold State.mapWriteFailed
  dsimp only
  generalize State.enterDegraded _ _ = m at hcore hcontrol hpresent ⊢
  have hidle : Control.Idle { m.control with commit := none, writer := none, owner := .none } := by
    rw [hcontrol]
    exact hl.ok.endCommit hl.commit .degraded (ph := none) nofun _
  have hpurpose : w.purpose = .retire ∨ w.purpose = .deadOnly := h.ok.retire w hw (by rw [State.control, h.commit]; nofun)
  rcases hpurpose with hp | hp
  · rw [hp]
    exact Whole.commitSucceeded hcore hl.awaited hl.ctx_slot (fun _ => id) hidle
  · rw [hp]
    exact Whole.commitPinned hcore hl.awaited hl.ctx_slot (fun _ => id) fullSet_ne_zero (h.map_full hw ▸ hpresent) _ hidle

/-! ### Formats -/

/-- The format ends with the store in the given state, and with it the long command (R135, R136). -/
theorem Whole.formatEnds (hcore : Core (s.ctx held) u) (hok : s.control.Ok held) (ho : s.owner = .mapWriter) (st :
    StoreState) {ph : Option StartPhase}
    (hph : ph ≠ some .mapLoad) (hu : { u.control with long := .none } =
      { s.control with writer := none, owner := .none, store := st, phase := ph, long := .none }) (long : LongCommand) : Whole (u.endLong long) := by
  have hf := hok.formats ho
  have hcommit : s.commit = none := hf.commit
  refine Whole.idle (hcore.endLong long) ⟨State.awaited_none hf.reading, ?_⟩ (fun _ => id) ?_
  · unfold State.ctx
    rw [hcommit]
    rfl
  · rw [State.endLong_control]
    have hlong := congrArg (fun d : Control => { d with long := if u.mgmt.long = long then .none else u.mgmt.long }) hu
    exact hlong ▸ hok.endFormat ho st hph _

theorem Whole.formatSucceeded (h : Whole s) (ho : s.owner = .mapWriter) : Whole (s.formatSucceeded w) := by
  unfold State.formatSucceeded
  split
  · obtain ⟨held, hcore, hok⟩ := h
    exact Whole.issueLoad (.recontrol (u := { s with writer := some (format1Writer s.capacity) }) hcore.congr rfl (hok.formatStep ho (.inr rfl)))
  · obtain ⟨held, hcore, hok⟩ := h
    have hsteps : ∀ m : State, Core (s.ctx held) m → m.control = { s.control with writer := none, owner := .none } →
      Whole (m.enterRunning.endLong .mapFormat) := fun m hm hc =>
      Whole.formatEnds hm.enterRunning hok ho .running (ph := none) nofun (by rw [State.enterRunning_control, hc]) _
    exact hsteps _ hcore.congr rfl
  · exact h
  · exact h

theorem Whole.formatFailed (h : Whole s) (ho : s.owner = .mapWriter) : Whole (s.formatFailed w failing) := by
  obtain ⟨held, hcore, hok⟩ := h
  exact Whole.formatEnds hcore.congr hok ho s.store.state (hok.formats ho).phase rfl _

theorem Whole.formatTimeout (h : Whole s) (ho : s.owner = .mapWriter) : Whole (s.formatTimeout w) := by
  obtain ⟨held, hcore, hok⟩ := h
  have hl : Core (s.ctx held) (s.append .arrayTimeout none (some w.attempt.target) none timeoutMap) := hcore.congr
  have hd := hl.enterDegraded (fun _ => id) .arrayTimeout
  have hcontrol := State.enterDegraded_control (s.append .arrayTimeout none (some w.attempt.target) none timeoutMap) .arrayTimeout
  unfold State.formatTimeout
  dsimp only
  generalize State.enterDegraded _ _ = m at hd hcontrol ⊢
  have hm : ({ State.control { m.dropWriter with condition := .unsettled } with long := .none } : Control) =
      { m.control with writer := none, owner := .none, long := .none } := rfl
  exact Whole.formatEnds hd.congr hok ho .degraded (ph := none) nofun (hm.trans (by rw [hcontrol]; rfl)) _

/-! ### The end of a verify -/

theorem Whole.verifyMap (h : Whole s) (hw : s.writer = some w) (hholds : s.commit ≠ none ∨ s.owner = .mapWriter)
    (hsub : failing &&& w.attempt.loadSet = failing) : Whole (s.verifyMap w failing) := by
  have hagain : failing ≠ 0 → Whole (s.setAttempt (w.attempt.again failing (mapOrder failing))) := fun hfail =>
    h.setAttempt (State.attempt_writer hw hholds) (.again hfail hsub _)
  rcases Option.eq_none_or_eq_some s.commit with hc | ⟨c, hc⟩
  · have ho := hholds.resolve_left (Classical.not_not.2 hc)
    rw [State.verifyMap_format hc]
    split
    · exact hagain (And.left ‹_›)
    · split
      · exact h.formatSucceeded ho
      · exact h.formatFailed ho
  · obtain ⟨held, hf⟩ := h.flying hc
    rw [State.verifyMap_commit hc]
    split
    · exact hagain (And.left ‹_›)
    · split
      · exact hf.mapWriteSucceeded hw
      · exact hf.mapWriteFailed hw

theorem Whole.verified (h : Whole s) {a : Attempt} (ha : s.attempt = some a) (hsub : failing &&& a.loadSet = failing) :
    Whole (s.verified failing) := by
  rcases State.attempt_cases ha with ⟨w, hw, rfl, hholds⟩ | ⟨c, hw, hc, rfl, -⟩
  · rw [State.verified_writer hw]
    exact h.verifyMap hw hholds hsub
  · obtain ⟨held, hf⟩ := h.flying hc
    unfold State.verified
    rw [hw, hc]
    dsimp only
    split
    · exact hf.verifyHome ‹_› hsub
    · exact hf.verifySpare ‹_› hsub
    · exact h

/-! ### Array timeouts -/

theorem State.Flying.timeoutOutcome (h : s.Flying c held) {add : OffsetSet} (hadd : add ≠ 0) (hsub : add &&& (s.slot c.slot).present = add)
    (target : Nat) (detail : Byte) : Whole (s.timeoutOutcome c target detail add) := by
  have hl : State.Flying (s.append .arrayTimeout (some c.page) (some target) none detail) c held := h.mono rfl fun _ hc => hc.congr
  have hpin := hl.core.pin hl.ctx_slot hadd hsub
  have hlog : Core { s.ctx held with commit := none } (State.logPinned ((s.append .arrayTimeout (some c.page)
    (some target) none detail).pin c.slot add) c pinnedByTimeout) :=
    hpin.congr
  have hd := hlog.enterDegraded (fun _ => id) .arrayTimeout
  have hcontrol := (State.enterDegraded_control (State.logPinned ((s.append .arrayTimeout (some c.page)
    (some target) none detail).pin c.slot add) c pinnedByTimeout)
    .arrayTimeout)
  have hpinned : (State.logPinned ((s.append .arrayTimeout (some c.page)
    (some target) none detail).pin c.slot add) c pinnedByTimeout).control = s.control :=
    (State.pin_frame (s.append .arrayTimeout (some c.page) (some target) none detail) c.slot add).toOnlyAccess.control
  unfold State.timeoutOutcome
  generalize State.enterDegraded _ _ = m at hd hcontrol ⊢
  refine Whole.idle (u := { m with commit := none, writer := none, owner := .none, condition := .unsettled }) hd.congr ⟨h.awaited,
    rfl⟩ (fun _ => id) ?_
  have hm : State.control { m with commit := none, writer := none, owner := .none, condition := .unsettled } =
      { m.control with commit := none, writer := none, owner := .none } := rfl
  rw [hm, hcontrol, hpinned]
  exact h.ok.endCommit h.commit .degraded (ph := none) nofun _

theorem Whole.commitTimeout (h : Whole s) (hc : s.commit = some c) {a : Attempt} (ha : s.attempt = some a) : Whole (s.commitTimeout c) := by
  obtain ⟨held, hf⟩ := h.flying hc
  have hadopt : ∀ c', State.Flying (s.adopt c') c held := fun c' => hf.mono rfl fun _ hc => hc.congr
  rw [State.commitTimeout_eq]
  rcases State.attempt_cases ha with ⟨w, hw, -, -⟩ | ⟨c', hw, hc', -, hp⟩
  · rw [hw]
    exact (hadopt c).timeoutOutcome fullSet_ne_zero ((hadopt c).full (hf.map_full hw)) _ _
  · obtain rfl := Option.some.inj (hc.symm.trans hc')
    rw [hw]
    rcases hp with hp | hp
    · obtain ⟨-, hload, hsub⟩ := hf.heldOk.home hp
      rw [hp]
      exact hf.timeoutOutcome hload (inter_eq_left_trans (subset_iff.1 hsub) hf.present) _ _
    · rw [hp]
      exact (hadopt _).timeoutOutcome fullSet_ne_zero ((hadopt _).full (hf.heldOk.spare hp).2) _ _

end Sys2Proof.Machine

/-! PROOF. The events of the commit engine, and those of the store controller and the map loader, keep the part sound (chapters 4, 7
and 8). -/

namespace Sys2Proof.Machine

variable {s u : State} {i j : SlotIx} {p q : PortId} {k : Ctx} {held failing : OffsetSet} {c : CommitRecord} {a : Attempt}

/-! ### The commit engine -/

/-- With an attempt under way the array is held, and in RUNNING and DRAINING a commit is in flight. -/
theorem Whole.attempting (h : Whole s) (ha : s.attempt = some a) : s.owner ≠ .none ∧ (s.works → s.commit ≠ none) := by
  obtain ⟨held, -, hok⟩ := h
  have hcommit : s.commit ≠ none → s.owner ≠ .none := fun hc ho => by
    obtain ⟨c, hc⟩ := Option.ne_none_iff_exists'.1 hc
    exact nomatch ho.symm.trans (hok.inFlight hc).owner
  have hformat : s.owner = .mapWriter → s.owner ≠ .none ∧ (s.works → s.commit ≠ none) := fun ho =>
    ⟨fun hn => (nomatch ho.symm.trans hn), fun hw => by
      have hs := (hok.formats ho).store
      rcases hw with hw | hw <;> exact nomatch hw.symm.trans hs⟩
  rcases State.attempt_cases ha with ⟨-, -, -, hc | ho⟩ | ⟨c, -, hc, -, -⟩
  · exact ⟨hcommit hc, fun _ => hc⟩
  · exact hformat ho
  · have hne : s.commit ≠ none := by rw [hc]; nofun
    exact ⟨hcommit hne, fun _ => hne⟩

theorem Whole.attempting_kept (h : Whole s) (ha : s.attempt = some a) (hu : Whole u)
    (hrest : u.owner = s.owner ∧ u.store = s.store ∧ u.commit.isNone = s.commit.isNone) : Kept s u := by
  obtain ⟨howner, hcommit⟩ := h.attempting ha
  obtain ⟨ho, hs, hc⟩ := hrest
  refine ⟨hu, fun _ => State.settled_of_owner (by rwa [ho]) fun hw _ hn => absurd ?_ (hcommit ?_)⟩
  · rw [hn] at hc
    exact Option.isNone_iff_eq_none.1 hc.symm
  · rwa [State.works, hs] at hw

theorem State.attemptIn_some {step : AttemptStep} (h : s.attemptIn step = some a) : s.attempt = some a := by
  unfold State.attemptIn at h
  split at h
  · split at h
    · exact (Option.some.inj h) ▸ ‹_›
    · cases h
  · cases h

theorem exec_pageLoad_kept (h : Whole s) (t : Time) (hu : execPageLoad t s = .next u) : Kept s u := by
  obtain rfl := Host.Outcome.next.inj hu
  refine Kept.of_tick (t := t) ?_
  have hm := h.tick t
  split
  · exact hm.attempting_kept (State.attemptIn_some ‹_›) hm.issueLoad (State.issueLoad_owner _)
  · exact hm.calm

theorem exec_lapseEnd_kept (h : Whole s) (t : Time) (hu : execLapseEnd t s = .next u) : Kept s u := by
  obtain rfl := Host.Outcome.next.inj hu
  refine Kept.of_tick (t := t) ?_
  have hm := h.tick t
  split
  · rename_i a ha
    have ha := State.attemptIn_some ha
    split
    · exact hm.attempting_kept ha ((hm.setAttempt (a :=
        { a with step := .poll, pollDeadline := some ((s.tick t).now + Config.pollTimeout) }) ha (.same rfl)).mono rfl fun _ _ hc =>
        hc.congr) (State.setAttempt_owner _ _)
    · exact hm.calm
  · exact hm.calm

theorem exec_pollRead_kept (h : Whole s) (t : Time) (ended : Bool) (worn : List Host.Cell) (hu : execPollRead t ended worn s = .next u) :
    Kept s u := by
  obtain rfl := Host.Outcome.next.inj hu
  refine Kept.of_tick (t := t) ?_
  have hm := h.tick t
  split
  · rename_i a ha
    have ha := State.attemptIn_some ha
    split
    · have hn : Kept (s.tick t) ((s.tick t).pollArray ended worn) := hm.calm
      dsimp only
      split
      · exact hn
      · exact hm.attempting_kept ha ((hn.whole.setAttempt (a := { a with step := .verify, pollByte := none, pollDeadline := none }) (b :=
          a) ha (.same rfl)).mono rfl fun _ _ hc => hc.congr) (State.setAttempt_owner _ _)
    · exact hm.calm
  · exact hm.calm

theorem exec_pollDeadlineExpiry_kept (h : Whole s) (t : Time) (hu : execPollDeadlineExpiry t s = .next u) : Kept s u := by
  obtain rfl := Host.Outcome.next.inj hu
  refine Kept.of_tick (t := t) ?_
  have hm := h.tick t
  split
  · rename_i a ha
    have ha := State.attemptIn_some ha
    split
    · split
      · exact (hm.commitTimeout ‹_› ha).finished
      · rename_i w hc hw
        rcases State.attempt_cases ha with ⟨-, -, -, hn | ho⟩ | ⟨c, -, hsome, -, -⟩
        · exact absurd hc hn
        · exact (hm.formatTimeout ho).finished
        · exact nomatch hc.symm.trans hsome
      · exact hm.calm
    · exact hm.calm
  · exact hm.calm

theorem exec_verifyComplete_kept (h : Whole s) (t : Time) (worn : List Host.Cell) (hu : execVerifyComplete t worn s = .next u) : Kept s u := by
  obtain rfl := Host.Outcome.next.inj hu
  refine Kept.of_tick (t := t) ?_
  have hm := h.tick t
  split
  · rename_i a ha
    have hn : Whole ((s.tick t).observe worn) := (hm.calm (u := (s.tick t).observe worn)).whole
    exact (hn.verified (a := a) (State.attemptIn_some ha) (a.failingSet_sub _)).finished
  · exact hm.calm

theorem exec_retireBackfillComplete_kept (h : Whole s) (t : Time) (worn : List Host.Cell) (hu : execRetireBackfillComplete t worn s = .next u) :
    Kept s u := by
  obtain rfl := Host.Outcome.next.inj hu
  refine Kept.of_tick (t := t) ?_
  have hm := h.tick t
  split
  · rename_i c hc
    have hn : Whole ((s.tick t).observe worn) := (hm.calm (u := (s.tick t).observe worn)).whole
    obtain ⟨held, hf⟩ := hn.flying hc
    split
    · exact (hf.completeBackfill ‹_›).finished
    · exact hm.calm
    · exact hm.calm
    · exact hm.calm
  · exact hm.calm

end Sys2Proof.Machine

/-! PROOF. The events of the store controller and the map loader keep the part sound (chapters 7 and 8). -/

namespace Sys2Proof.Machine

variable {s u : State} {i j : SlotIx} {p q : PortId} {k : Ctx} {held : OffsetSet}

/-! ### The start-up -/

theorem State.settled_of_starting (h : s.store.state = .starting) : s.settled := by
  refine ⟨fun hf => absurd h (s.arrayFree_iff.1 hf).2.2.2, fun hw => ?_⟩
  rcases hw with hw | hw <;> exact nomatch h.symm.trans hw

theorem State.holdReady_starting (h : s.holdReady = true) : s.store.state = .starting := by
  simp only [State.holdReady, Bool.and_eq_true, decide_eq_true_eq] at h
  exact h.1.1.2

theorem exec_holdBegin_kept (h : Whole s) (t : Time) (hu : execHoldBegin t s = .next u) : Kept s u := by
  obtain rfl := Host.Outcome.next.inj hu
  refine Kept.of_tick (t := t) ?_
  have hm := h.tick t
  split
  · rename_i hready
    have hs := State.holdReady_starting hready
    have hbegin := hm.beginHold hready
    split
    · rename_i hnone
      have hsame : ({ s.tick t with reading := none } : State) = s.tick t := by rw [← hnone]
      rw [hsame] at hbegin
      exact ⟨hbegin, fun _ => State.settled_of_starting hs⟩
    · split
      · exact ⟨hbegin, fun _ => State.settled_of_starting hs⟩
      · exact hm.calm
  · exact hm.calm

theorem exec_holdEnd_kept (h : Whole s) (hstore : s.store.fieldsOk) (t : Time) (hu : execHoldEnd t s = .next u) : Kept s u := by
  obtain rfl := Host.Outcome.next.inj hu
  refine Kept.of_tick (t := t) ?_
  have hm := h.tick t
  split
  · rename_i hcond
    obtain ⟨hp, -⟩ := hcond
    have hphase : s.store.phase = some .hold := hp
    have hs : s.store.state = .starting := hstore.2.2.1.1 (by rw [hphase]; nofun)
    obtain ⟨held, hcore, hok⟩ := hm
    exact ⟨.recontrol hcore.congr rfl (hok.beginLoad hs hp), fun _ => State.settled_of_starting hs⟩
  · exact hm.calm

/-! ### The map load -/

theorem exec_readMap_kept (h : Whole s) : Kept s s.readMap := by
  unfold State.readMap
  split
  · exact h.calm
  · rename_i l hl
    split
    · rename_i hlen
      obtain ⟨held, hcore, hok⟩ := h
      obtain ⟨h0, h1, hfirst⟩ := hok.loaded l hl
      refine ⟨.recontrol hcore.congr rfl (hok.load hl ?_), id⟩
      unfold MapLoader.take
      split
      · rename_i hlt
        refine ⟨?_, h1, fun hn => absurd (hfirst hn) (Nat.ne_of_lt hlt)⟩
        exact Nat.le_trans (Nat.le_of_eq List.length_append) (Nat.succ_le_of_lt hlt)
      · rename_i hge
        have h64 : l.copy0.length = 64 := by omega
        refine ⟨h0, ?_, fun _ => h64⟩
        simp only [List.length_append, List.length_cons, List.length_nil]
        omega
    · exact h.calm

/-- The selection sets the table and the store's state; what is under way stands. -/
theorem State.applySelection_steps (s : State) (sel : Selection) : (∃ st l,
    (s.applySelection sel).control = { s.control with store := st, phase := none, long := l }) ∧
    ∀ k : Ctx, (∀ p, ¬k.loose p) → Core k s → Core k (s.applySelection sel) := by
  have hrunning : ∀ m : State, m.control = s.control → (∀ k : Ctx, Core k s → Core k m) →
      (∃ st l, m.enterRunning.control = { s.control with store := st, phase := none, long := l }) ∧
        ∀ k : Ctx, (∀ p, ¬k.loose p) → Core k s → Core k m.enterRunning := fun m hm hc => by
    refine ⟨⟨.running, s.mgmt.long, ?_⟩, fun k _ h => (hc k h).enterRunning⟩
    rw [State.enterRunning_control, hm]
    rfl
  unfold State.applySelection
  split
  · dsimp only
    split
    · exact hrunning _ rfl fun _ h => h.congr
    · exact hrunning _ rfl fun _ h => h.congr
  · exact ⟨⟨_, _, State.enterDegraded_control _ _⟩, fun k hk h => Core.enterDegraded h.congr hk _⟩

theorem exec_mapLoadEnd_kept (h : Whole s) (t : Time) (worn : List Host.Cell) (hu : execMapLoadEnd t worn s = .next u) : Kept s u := by
  obtain rfl := Host.Outcome.next.inj hu
  refine Kept.of_tick (t := t) ?_
  have hm := h.tick t
  split
  · rename_i ho
    obtain ⟨held, hcore, hok⟩ := hm
    obtain ⟨⟨st, l, hcontrol⟩, hsteps⟩ := State.applySelection_steps { (s.tick t).observe worn with loader := none, owner := .none }
      (select (logicalPages ((s.tick t).observe worn).capacity) (((s.tick t).observe worn).copyBytes 0) (((s.tick t).observe worn).copyBytes 1))
    have hr := hsteps ((s.tick t).ctx held) (fun _ => id) hcore.congr
    have hseized := hok.seized (.inr (.inr ho))
    have hcommit : (s.tick t).commit = none := hok.commit_none (by rw [State.control, ho]; nofun)
    dsimp only
    generalize State.applySelection _ _ = r at hcontrol hr ⊢
    refine (Whole.idle ((hr.endLong .restart).endLong .resume) ⟨State.awaited_none hseized.reading, ?_⟩ (fun _ => id) ?_).finished
    · unfold State.ctx
      rw [hcommit]
      rfl
    · rw [State.endLong_control, State.endLong_control, hcontrol]
      exact hok.endLoad ho st _
  · exact hm.calm

/-! ### Pin reset -/

theorem HostPort.Idled.fieldsOk {h : HostPort} (hi : h.Idled) : h.fieldsOk ∧ h.access.map Access.size ≠ some 3 ∧ h.waited = none := by
  obtain ⟨hstate, haccess, hstall, hwaited⟩ := hi
  exact ⟨⟨iff_of_true haccess hstate, iff_of_true hstall hstate, iff_of_true hwaited (by rw [hstate]; nofun)⟩, by rw [haccess]; nofun, hwaited⟩

theorem HostPort.pinReset_idled {h : HostPort} (hf : h.fieldsOk) (now : Time) : (h.pinReset now).Idled := by
  obtain ⟨haccess, hstall, hwaited⟩ := hf
  unfold HostPort.pinReset
  dsimp only
  split
  · exact .present _ _ _ _
  · rename_i hidle
    have hidle := Classical.not_not.1 hidle
    have hnone := hwaited.2 (by rw [hidle]; nofun)
    split
    · exact ⟨hidle, haccess.2 hidle, hstall.2 hidle, hnone⟩
    · exact ⟨hidle, haccess.2 hidle, hstall.2 hidle, hnone⟩

theorem exec_resetNFall_kept (h : Whole s) (t : Time) (hu : execResetNFall t s = .next u) : Kept s u := by
  obtain rfl := Host.Outcome.next.inj hu
  refine Kept.of_tick (t := t) ?_
  have hm := h.tick t
  split
  · obtain ⟨held, hcore, -⟩ := hm
    refine ⟨Whole.idle (State.Emptied.core ⟨rfl, rfl, rfl, rfl, rfl, rfl, rfl⟩ (L := fun _ => False) (fun p _ => ?_) nofun) ⟨rfl,
      rfl⟩ (fun _ => id) ?_,
      fun _ => State.settled_of_starting rfl⟩
    · cases p with
      | a => exact (HostPort.pinReset_idled (hcore.port .a id).fields _).fieldsOk
      | b => exact (HostPort.pinReset_idled (hcore.port .b id).fields _).fieldsOk
    · exact { reading := forall_mem_none rfl, phase := nofun, driven := fun _ => .inl rfl, reset := fun _ => ⟨rfl, rfl, rfl⟩ }
  · exact hm.calm

theorem exec_resetNRise_kept (h : Whole s) (t : Time) (acap : Fin 4) (addr : BitVec 2) (flush pfw : Bool)
    (hu : execResetNRise t acap addr flush pfw s = .next u) : Kept s u := by
  obtain rfl := Host.Outcome.next.inj hu
  refine Kept.of_tick (t := t) ?_
  have hm := h.tick t
  split
  · exact hm.calm
  · rename_i hlow
    obtain ⟨held, hcore, hok⟩ := hm
    have hlow := eq_false_of_ne_true hlow
    have hs := (hok.reset hlow).1
    have hports := (hcore.samePort (p := .a) (h' := (s.tick t).portA.pinRise) {}).samePort (p := .b) (h' := (s.tick t).portB.pinRise) {}
    refine ⟨Whole.tryHold (Whole.intro held hports.congr rfl rfl id (fun _ => id) ((hok.rise hlow).ok held)), fun _ => State.settled_of_starting ?_⟩
    unfold State.tryHold
    split
    · exact hs
    · exact hs

end Sys2Proof.Machine

/-! PROOF. The commands of the management port keep the part sound (chapter 10). -/

namespace Sys2Proof.Machine

variable {s u : State} {i j : SlotIx} {p q : PortId} {k : Ctx} {held : OffsetSet} {code : Byte} {args : List Byte}

/-! ### Commands that read, set and seal -/

theorem Whole.respond (h : Whole s) (code : Byte) (result : Result) (payload : List Byte) : Whole (s.respond code result payload) :=
  h.mono rfl fun _ _ hc => hc.congr

theorem Whole.doConfigSet (h : Whole s) (args : List Byte) : Whole (s.doConfigSet args) := by
  have hm : Whole { s with params := s.params.set (argument args) (configValue args) } := h.mono rfl fun _ _ hc => hc.congr
  unfold State.doConfigSet
  dsimp only
  split
  · exact (hm.access (State.highWater_frame _).toOnlyAccess fun _ _ hc => hc.highWater).respond _ _ _
  · exact hm.respond _ _ _

theorem Whole.doLogRead (h : Whole s) : Whole s.doLogRead := by
  unfold State.doLogRead
  split
  · exact h.respond _ _ _
  · refine Whole.respond ?_ _ _ _
    exact h.mono rfl fun _ _ hc => hc.congr

theorem Whole.doMapRead (h : Whole s) (args : List Byte) : Whole (s.doMapRead args) := by
  unfold State.doMapRead
  split
  · exact h.respond _ _ _
  · exact h.respond _ _ _

theorem Whole.doRetry (h : Whole s) : Whole s.doRetry := by
  have hframe := s.retrySeals_frame.trans (OnlySlots.foldl (fun m i => m.moveTo_frame i .sealed) s.pinned _)
  exact h.mono hframe.toOnlyAccess.control fun _ _ hc => hc.doRetry

/-! ### QUIESCE, RESUME, RESTART -/

theorem Whole.doQuiesce (h : Whole s) (hs : s.store.state = .running) : Whole s.doQuiesce := by
  have hframe := s.sealAll_frame.trans (State.clearDeadlines_frame _)
  have hf := h.access hframe.toOnlyAccess fun _ _ hc => hc.sealAll.clearDeadlines
  have hstore : s.sealAll.clearDeadlines.store.state = .running := by
    rw [hframe.keeps (f := State.store) fun _ => rfl]
    exact hs
  unfold State.doQuiesce
  dsimp only
  generalize s.sealAll.clearDeadlines = f at hf hstore ⊢
  have hm : Whole { f with store := { f.store with state := .draining }, mgmt := { f.mgmt with long := .quiesce } } := by
    obtain ⟨held, hcore, hok⟩ := hf
    exact .recontrol hcore.congr rfl (hok.drain hstore .quiesce)
  split
  · rename_i hcond
    obtain ⟨hq, hc⟩ := hcond
    exact (hm.enterQuiesced (.inr rfl) hc hq).respond _ _ _
  · exact hm.respond _ _ _

theorem Whole.doResume (h : Whole s) (hs : s.store.state = .quiesced) (hd : s.driven = false) (hr : s.resetN = true) : Whole s.doResume := by
  obtain ⟨held, hcore, hok⟩ := h
  have hq := hok.quiesced hs hd
  have hnone : (s.ctx held).commit = none := by
    unfold State.ctx
    rw [show s.commit = none from hq.commit]
    rfl
  have hread : s.reading = none := Option.eq_none_iff_forall_ne_some.2 fun g hg => nomatch hs.symm.trans (hq.reading g hg).2.1
  have hm : Core (s.ctx held) { s with mgmt := { s.mgmt with long := .resume }, driven := true, condition := .unsettled } := hcore.congr
  have hn := Core.foldl (fun _ i hc => hc.invalidateSlot hnone i) allSlots hm
  have hcontrol := (OnlySlots.foldl State.invalidateSlot_frame allSlots
    { s with mgmt := { s.mgmt with long := .resume }, driven := true, condition := .unsettled }).toOnlyAccess.control
  unfold State.doResume
  dsimp only
  generalize allSlots.foldl State.invalidateSlot _ = n at hn hcontrol ⊢
  have hfinal : ∀ v : State, Core (s.ctx held) v → v.control = { n.control with store := .starting, phase := some .hold } → Whole v :=
    fun v hv hc => by
    refine Whole.idle hv ⟨State.awaited_none hread, hnone⟩ (fun _ => id) ?_
    rw [hc, hcontrol]
    exact hok.resume hs hd hr .resume
  refine Whole.respond ?_ _ _ _
  exact hfinal (State.beginHold { n with store := { n.store with state := .starting, cause := none, origin := some .resume } }) hn.congr rfl

theorem State.dropAll_core (h : Core k s) (hk : ∀ p, ¬k.loose p) :
    Core { awaited := none, commit := none, queued := False, loose := fun p => p ∈ s.waitingReads } s.dropAll := by
  have hport : ∀ p, s.dropAll.port p = s.port p := fun p => by cases p <;> rfl
  refine State.Emptied.core ⟨rfl, rfl, rfl, rfl, rfl, rfl, rfl⟩ (fun p hp => ?_) fun p hp => ?_
  · obtain ⟨hf, hs, -, -⟩ := h.port p (hk p)
    rw [hport]
    exact ⟨hf, hs, hf.2.2.2 fun hw => hp (State.mem_waitingReads.2 (.inl hw))⟩
  · obtain ⟨⟨haccess, -, -⟩, hs, -, -⟩ := h.port p (hk p)
    rw [hport]
    obtain ⟨acc, hacc⟩ := Option.ne_none_iff_exists'.1 fun hn => by
      rcases State.mem_waitingReads.1 hp with hw | hw <;> exact nomatch hw.symm.trans (haccess.1 hn)
    exact ⟨acc, hacc, fun h3 => hs (by rw [hacc, Option.map_some, h3])⟩

theorem State.orphanRead_dropped (s : State) : ∀ g ∈ s.orphanRead, g.dropped = true := by
  intro g hg
  unfold State.orphanRead at hg
  split at hg
  · exact Option.some.inj hg ▸ rfl
  · split at hg
    · exact Option.some.inj hg ▸ rfl
    · cases hg

theorem Whole.doRestart (h : Whole s) (hr : s.resetN = true) : Whole s.doRestart := by
  obtain ⟨held, hcore, -⟩ := h
  have hserved := ((State.dropAll_core hcore fun _ => id).serveRestarted fun p => Iff.rfl).orderRequests 0
  have hcontrol := ((State.serveRestarted_frame s.dropAll s.waitingReads).trans (State.orderRequests_frame _ 0)).control
  unfold State.doRestart
  dsimp only
  generalize (s.dropAll.serveRestarted s.waitingReads).orderRequests 0 = m at hserved hcontrol ⊢
  have hm : Whole m := Whole.idle hserved ⟨rfl, rfl⟩ (fun _ => id) (by
    rw [hcontrol]
    exact { reading := fun g hg => ⟨s.orphanRead_dropped g hg, rfl, rfl⟩, phase := nofun, driven := nofun
            reset := fun hn => nomatch hr.symm.trans hn })
  have happend : Whole (m.append .restarted none none none s.store.state.code) := hm.mono rfl fun _ _ hc => hc.congr
  exact happend.tryHold.respond _ _ _

/-! ### DISCARD and MAP_FORMAT -/

/-- Slots discarded leave the record of what is under way, but that a granted read may be dropped. -/
theorem State.discards_control (l : List SlotIx) (s : State) : (l.foldl State.discardSlot s).control = s.control ∨
    (l.foldl State.discardSlot s).control = { s.control with reading := s.reading.map fun g => { g with dropped := true } } := by
  have hone : ∀ (m : State) (i : SlotIx), (m.discardSlot i).control = m.control ∨ (m.discardSlot i).control = m.dropReading.control := fun m i => by
    have hframe := fun d : State => ((d.withdrawFill_frame i).trans (State.freeSlot_frame _ i).toOnlyAccess).control
    unfold State.discardSlot
    dsimp only
    split
    · exact .inr (hframe _)
    · exact .inl (hframe _)
  induction l generalizing s with
  | nil => exact .inl rfl
  | cons i l ih =>
    rcases hone s i with hi | hi
    · have hread : (s.discardSlot i).reading = s.reading := congrArg Control.reading hi
      have := ih (s.discardSlot i)
      rwa [hi, hread] at this
    · rw [s.dropReading_control] at hi
      have hread : (s.discardSlot i).reading = s.reading.map fun g => { g with dropped := true } := congrArg Control.reading hi
      have := ih (s.discardSlot i)
      rw [hi, hread, Option.map_map] at this
      exact .inr (this.elim id id)

theorem Whole.discards (h : Whole s) {l : List SlotIx} (hl : l.Nodup) (hp : ∀ i ∈ l, (s.slot i).state = .pinned) (n : State → Nat) :
    Whole (((l.foldl State.discardSlot s).serveRestarted (s.waitersOf l)).orderRequests (n (l.foldl State.discardSlot s))) := by
  obtain ⟨held, hcore, hok⟩ := h
  have hd := Core.discards (k := s.ctx held) hcore hl hp fun i hi => hok.owner_of_awaited hi
  have hserved := (hd.serveRestarted (reads := s.waitersOf l) fun p => by
    rw [s.mem_waitersOf l p]
    exact or_iff_right id).orderRequests (n (l.foldl State.discardSlot s))
  have hframe := (State.serveRestarted_frame (l.foldl State.discardSlot s) (s.waitersOf l)).trans (State.orderRequests_frame _ (n
    (l.foldl State.discardSlot s)))
  have hcontrol := hframe.control
  have hawaited := hframe.keeps (f := State.awaited) fun _ => rfl
  have hrecord : (l.foldl State.discardSlot s).control.Ok held ∧ (l.foldl State.discardSlot s).control.commit = s.commit ∧
      (l.foldl State.discardSlot s).control.engineReq = s.engineReq := by
    rcases State.discards_control l s with he | he
    · rw [he]
      exact ⟨hok, rfl, rfl⟩
    · rw [he]
      exact ⟨hok.dropRead, rfl, rfl⟩
  rw [← hcontrol] at hrecord
  obtain ⟨hnew, hc, he⟩ := hrecord
  generalize ((l.foldl State.discardSlot s).serveRestarted (s.waitersOf l)).orderRequests (n (l.foldl State.discardSlot s)) = m at *
  exact .intro held hserved hawaited (by rw [show m.commit = s.commit from hc]; rfl)
    (by rw [show m.engineReq = s.engineReq from he]; exact id) (fun _ => id) hnew

theorem Whole.doDiscard (h : Whole s) (hargs : argument args = 0xFF ∨ (s.slot (slotOf (argument args))).state = .pinned) :
    Whole (s.doDiscard args) := by
  obtain ⟨held, hcore, -⟩ := id h
  have hpinned := hcore.coll.2.2.2.2
  have hslots : (s.discardSlots args).Nodup ∧ ∀ i ∈ s.discardSlots args, (s.slot i).state = .pinned := by
    unfold State.discardSlots
    split
    · exact ⟨hpinned.1, fun i hi => (hpinned.2 i).1 hi⟩
    · rename_i hne
      exact ⟨List.pairwise_singleton _ _, fun i hi => List.mem_singleton.1 hi ▸ hargs.resolve_left hne⟩
  exact (h.discards hslots.1 hslots.2 fun m => m.requests.length).respond _ _ _

theorem Whole.doMapFormat (h : Whole s) (hs : s.store.state = .degraded) (hl : s.mgmt.long = .none) : Whole s.doMapFormat := by
  obtain ⟨held, hcore, hok⟩ := h
  refine Whole.respond ?_ _ _ _
  exact .intro held hcore.congr rfl rfl nofun (fun _ => id) (hok.beginFormat hs hl rfl)

/-! ### The event of a command -/

theorem State.refusal_none_idle {overflow : Bool} (h : s.refusal code args overflow = none) (hcode : code.toNat = 0x0E) : s.mgmt.long = .none := by
  have hc : code = 0x0E := BitVec.eq_of_toNat_eq hcode
  subst hc
  unfold State.refusal State.longBusy at h
  cases hl : s.mgmt.long with
  | none => rfl
  | _ =>
    simp only [hl] at h
    split at h
    · cases h
    · split at h
      · cases h
      · split at h <;> cases h

theorem Whole.effect (h : Whole s) (hr : s.resetN = true) (hstate : s.stateForbids code args = false) (hidle : code.toNat = 0x0E →
    s.mgmt.long = .none) :
    Whole (s.effect code args) := by
  unfold State.stateForbids at hstate
  unfold State.effect
  split <;> rename_i hc <;> simp only [hc] at hstate
  · exact h.respond _ _ _
  · exact h.respond _ _ _
  · exact h.doConfigSet args
  · exact h.sealAll.respond _ _ _
  · exact h.doQuiesce (by simpa using hstate)
  · obtain ⟨hs, hd⟩ : s.store.state = .quiesced ∧ s.driven = false := by simpa using hstate
    exact h.doResume hs hd hr
  · exact h.doRestart hr
  · exact h.doLogRead
  · exact h.respond _ _ _
  · exact h.doMapRead args
  · exact (h.samePort {}).whole.respond _ _ _
  · exact h.doRetry
  · exact h.doDiscard (by simpa [Classical.or_iff_not_imp_left] using hstate)
  · obtain ⟨hs, -⟩ : s.store.state = .degraded ∧ s.store.cause = some .mapInvalid := by simpa using hstate
    exact h.doMapFormat hs (hidle hc)
  · exact h

theorem Whole.runCommand (h : Whole s) (hr : s.resetN = true) (code : Byte) (args : List Byte) (overflow : Bool) :
    Whole (s.runCommand code args overflow) := by
  unfold State.runCommand
  split
  · exact h.respond _ _ _
  · rename_i hpass
    exact h.effect hr (State.refusal_none hpass).1 (State.refusal_none_idle hpass)

theorem commandEvent_kept (h : Whole s) (t : Time) (code : Byte) (args : List Byte) : Kept s ((s.tick t).commandEvent code args) := by
  refine Kept.of_tick (t := t) ?_
  unfold State.commandEvent
  split
  · exact ((h.tick t).runCommand ‹_› _ _ _).finished
  · exact (h.tick t).calm

theorem Whole.endOpenWrite (h : Whole s) (hr : s.resetN = true) : Whole s.endOpenWrite := by
  unfold State.endOpenWrite
  split
  · unfold State.endWrite
    split
    · exact h
    · exact h.runCommand hr _ _ _
  · unfold State.endGeneralCall
    split
    · exact h.sealAll
    · exact h
  · exact h
  · exact h
  · exact h

theorem exec_startCondition_kept (h : Whole s) (t : Time) (hu : execStartCondition t s = .next u) : Kept s u := by
  obtain rfl := Host.Outcome.next.inj hu
  split
  · exact (((h.tick t).endOpenWrite ‹_›).modMgmt rfl).whole.finished
  · exact h.ticked t

theorem exec_stopCondition_kept (h : Whole s) (t : Time) (hu : execStopCondition t s = .next u) : Kept s u := by
  obtain rfl := Host.Outcome.next.inj hu
  split
  · exact (((h.tick t).endOpenWrite ‹_›).modMgmt rfl).whole.finished
  · exact h.ticked t

end Sys2Proof.Machine

/-! PROOF. Every step keeps the part sound and leaves no grant undone. -/

namespace Sys2Proof.Machine

variable {s u : State}

/-- What every event keeps, event by event. -/
theorem exec_kept (h : Whole s) (hstore : s.store.fieldsOk) {c : Instr} (hu : exec c s = .next u) : Kept s u := by
  have hcommand : ∀ t code args, Kept s ((s.tick t).commandEvent code args) := fun t code args => commandEvent_kept h t code args
  cases c
  case accessArrival t p wr addr size wd => exact exec_accessArrival_kept h t p wr addr size wd hu
  case reqRemoved t p => exact exec_reqRemoved_kept h t p hu
  case rdyPulseEnd t p => exact exec_rdyPulseEnd_kept h t p hu
  case stallExpiry t p => exact exec_stallExpiry_kept h t p hu
  case fillCompletion t worn => exact exec_fillCompletion_kept h t worn hu
  case bypassCompletion t worn => exact exec_bypassCompletion_kept h t worn hu
  case settleExpiry t i => exact exec_settleExpiry_kept h t i hu
  case ageExpiry t i => exact exec_ageExpiry_kept h t i hu
  case flushRisingEdge t => exact exec_flushRisingEdge_kept h t hu
  case flushFallingEdge t => exact exec_flushFallingEdge_kept h t hu
  case pfwAssertionEdge t => exact exec_pfwAssertionEdge_kept h t hu
  case pfwDeassertionEdge t => exact exec_pfwDeassertionEdge_kept h t hu
  case pageLoad t => exact exec_pageLoad_kept h t hu
  case lapseEnd t => exact exec_lapseEnd_kept h t hu
  case pollRead t ended worn => exact exec_pollRead_kept h t ended worn hu
  case pollDeadlineExpiry t => exact exec_pollDeadlineExpiry_kept h t hu
  case verifyComplete t worn => exact exec_verifyComplete_kept h t worn hu
  case retireBackfillComplete t worn => exact exec_retireBackfillComplete_kept h t worn hu
  case holdBegin t => exact exec_holdBegin_kept h t hu
  case holdEnd t => exact exec_holdEnd_kept h hstore t hu
  case mapLoadEnd t worn => exact exec_mapLoadEnd_kept h t worn hu
  case resetNFall t => exact exec_resetNFall_kept h t hu
  case resetNRise t acap addr flush pfw => exact exec_resetNRise_kept h t acap addr flush pfw hu
  case startCondition t => exact exec_startCondition_kept h t hu
  case stopCondition t => exact exec_stopCondition_kept h t hu
  case misplacedCondition t stop => exact exec_misplacedCondition_kept h t stop hu
  case addressByte t byte => exact exec_addressByte_kept h t byte hu
  case dataByte t byte => exact exec_dataByte_kept h t byte hu
  case responseByte t ack => exact exec_responseByte_kept h t ack hu
  case generalCallByte t byte => exact exec_generalCallByte_kept h t byte hu
  case generalCallFlush t => exact exec_generalCallFlush_kept h t hu
  case unknownCommand t code args =>
    obtain rfl := Host.Outcome.next.inj hu
    split
    · exact hcommand t code args
    · exact h.ticked t
  all_goals
    obtain rfl := Host.Outcome.next.inj hu
    exact hcommand _ _ _

/-- A step takes a waiting event, or is the map loader's next read. -/
theorem step_kept (h : Whole s) (hstore : s.store.fieldsOk) (hu : step s = .next u) : Kept s u := by
  rcases step_cases hu with ⟨-, rfl⟩ | ⟨c, rest, -, hexec⟩
  · exact exec_readMap_kept h
  · have hqueued : Kept s { s with pending := rest } := h.calm
    obtain ⟨hwhole, hsettled⟩ := exec_kept hqueued.whole hstore hexec
    exact ⟨hwhole, fun hs => hsettled (hqueued.settled hs)⟩

/-- Settles O8: soundness is the core in its context with the record of what is under way, and each event keeps both; the pages of the
slots and the fields of the store's record have statements of their own (O6, O9). -/
theorem partStaysSound : Obligations.PartStaysSound := by
  intro s u hs hu
  obtain ⟨⟨hcoll, hpages, -⟩, -, -, -, hstore, -⟩ := id hs
  obtain ⟨-, -, hstores, -⟩ := boundsAndTimersKept s u hu
  obtain ⟨hwhole, hsettled⟩ := step_kept hs.whole hstore hu
  exact ⟨hwhole.sound (noTwoSlotsCarryOnePage s u hcoll hpages hu) (hstores hstore), hsettled⟩

end Sys2Proof.Machine

end
